-- ==== Sys2Proof/Word.lean ====
section
/-! DEFINITION. Word.lean: the two widths of data the spec moves (00_scope.md R12, R13): bytes and
16-bit words, both unsigned. -/

namespace Sys2Proof

/-- A byte: 8 bits, unsigned (00_scope.md R12). -/
abbrev Byte := BitVec 8

/-- A 16-bit unsigned value: a length, a field, a checksum (00_scope.md R12, R13). -/
abbrev Word := BitVec 16

/-- The dispatch word `d = {phase[2:0], start, tick, valid}` (30_encoding.md R76). -/
abbrev DispatchWord := BitVec 6

end Sys2Proof
end

