-- ==== Sys2Proof/Config.lean ====
section
/-! DEFINITION. Config.lean: the fixed parameters (00_scope.md R5), the open ones (00_scope.md R6), the acts of
the environment, and the free values (constants with no body). -/

namespace Sys2Proof

/-- `BUF_CAP`, the capacity of the frame buffer in bytes (00_scope.md R5). -/
def bufCap : Nat := 32

/-- `SIG0`, the first signature byte (00_scope.md R5). -/
def sig0 : Byte := 0x42

/-- `SIG1`, the second signature byte (00_scope.md R5). -/
def sig1 : Byte := 0x4D

/-- `EXT_LEN`, the declared length that selects the Extended variant (00_scope.md R5). -/
def extLen : Word := 28

/-- `HDR`, the number of bytes before the counted part of a frame (00_scope.md R5). -/
def hdr : Nat := 4

/-- `CK_W`, the width of the checksum field in bytes (00_scope.md R5). -/
def ckW : Nat := 2

/-- The configuration record `Cfg` (00_scope.md R6): the two time budgets in ticks.  `TICK_PERIOD` is left out,
since no rule reads it.  An instance of the machine carries one and no step changes it (70_reset_and_hazards.md R197).
DESIGN CHOICE (log 3), safe: the budgets are open, so statements hold for every pair of them. -/
structure Cfg where
  tScan : Nat
  tBody : Nat
  deriving DecidableEq, Repr, Inhabited

/-- Each budget is "a natural number at least 1" (00_scope.md R6). -/
abbrev Cfg.wf (c : Cfg) : Prop := 1 ≤ c.tScan ∧ 1 ≤ c.tBody

/-- One act of the environment (00_scope.md R11).  DESIGN CHOICE (log 1), safe: the spec's inputs arrive as data. -/
inductive Event where
  /-- One clock step of the block with the strobes `rst`, `start`, `tick`; `valid` and `data` come from the Byte
  Source (00_scope.md R8, R9, R11). -/
  | clock (rst start tick : Bool)
  /-- The sensor side appends bytes to the Byte Source (00_scope.md R11, 20_memory.md R61). -/
  | inbound (bytes : List Byte)
  /-- The host hands a command's bytes to the outbound line (30_encoding.md R82, 70_reset_and_hazards.md R195). -/
  | outbound (bytes : List Byte)
  deriving DecidableEq, Repr, Inhabited

namespace Config

/-- The scan budget of the machine's instance, less one: an open parameter, so no body (log 3). -/
opaque scanTicksLessOne : Nat

/-- The body budget of the machine's instance, less one: an open parameter, so no body (log 3). -/
opaque bodyTicksLessOne : Nat

/-- The open parameters of the machine's instance, each at least 1 (00_scope.md R6; log 3). -/
def budgets : Cfg := { tScan := scanTicksLessOne + 1, tBody := bodyTicksLessOne + 1 }

/-- What the environment does next where `State.events` places nothing: a free value, the `n`-th drawn (log 2). -/
opaque freeEvent (n : Nat) : Event

end Config

end Sys2Proof
end

