-- ==== Sys2Proof/Syntax.lean ====
section
/-! DEFINITION. Syntax.lean: one constructor per row of spec/opcode_table.json. -/

namespace Sys2Proof

/-- The instructions.  The first thirteen are the rows of the dispatch table (30_encoding.md R77), in its order; the
byte `data[7:0]` is an operand of SCAN.B and BODY.B alone (30_encoding.md R76).  The last three are the rows of format Q
(30_encoding.md R82) and of format W (30_encoding.md R71). -/
inductive Instr where
  /-- START, R100. -/
  | start
  /-- HOLD, R101. -/
  | hold
  /-- SCAN.T, R111. -/
  | scanT
  /-- SCAN.B, R110. -/
  | scanB (data : Byte)
  /-- SCAN.W, R112. -/
  | scanW
  /-- BODY.T, R123. -/
  | bodyT
  /-- BODY.B, R120. -/
  | bodyB (data : Byte)
  /-- BODY.W, R124. -/
  | bodyW
  /-- NORM, R130. -/
  | norm
  /-- RSLV, R135. -/
  | rslv
  /-- CSUM, R140. -/
  | csum
  /-- SIGC, R145. -/
  | sigc
  /-- RSVD7, R79. -/
  | rsvd7
  /-- CMD.PASSIVE, R82. -/
  | cmdPassive
  /-- CMD.REQUEST, R82. -/
  | cmdRequest
  /-- FRAME, R71: the declared length and the bytes that follow the length field (payload and checksum). -/
  | frame (len : Word) (body : List Byte)
  deriving DecidableEq, Repr

end Sys2Proof
end

