-- ==== Sys2Proof/WellFormed.lean ====
section
/-! DEFINITION. WellFormed.lean: what an instruction's operands must satisfy for it to have an encoding, and what the
spec says of a frame beyond that (30_encoding.md R71, R75, R86). -/

namespace Sys2Proof

/-- A FRAME's length field counts the bytes that follow it (30_encoding.md R71: "counts bytes following the length
field up to and including the checksum").  Every other instruction is well formed as it stands: its operand is a byte. -/
def Instr.wf : Instr → Bool
  | .frame len body => body.length == len.toNat
  | .start | .hold | .scanT | .scanB _ | .scanW | .bodyT | .bodyB _ | .bodyW => true
  | .norm | .rslv | .csum | .sigc | .rsvd7 | .cmdPassive | .cmdRequest => true

/-- A declared length the Frame Reader accepts: 1 to 28 (30_encoding.md R75). -/
def lenAccepted (len : Word) : Bool := 1 ≤ len.toNat && len.toNat ≤ 28

/-- A sender's length: an even one, since fields and checksum have 16 bits (30_encoding.md R86: `L = 2m + 2`). -/
def lenEven (len : Word) : Bool := len.toNat % 2 == 0

/-- The sum mod 65536 of bytes (30_encoding.md R71). -/
def byteSum : List Byte → Word
  | [] => 0
  | b :: bytes => b.setWidth 16 + byteSum bytes

end Sys2Proof
end

