-- ==== Sys2Proof/Decode.lean ====
section
/-! DEFINITION. Decode.lean: the decoder, total on any bytes and rejecting by name; after it the encoder, from the
same tables (30_encoding.md R70 to R77, R82). -/

namespace Sys2Proof

/-- The three formats (30_encoding.md R70): which of them a byte string is in is told by where it stands, not by its
bytes: the dispatch word inside the block, a command on the outbound line, a frame on the inbound line. -/
inductive Format where
  /-- Format D: the dispatch word, then the operand byte `data` (log 16). -/
  | dispatch
  /-- Format Q: a 7-byte outbound command. -/
  | command
  /-- Format W: an inbound frame. -/
  | wire
  deriving DecidableEq, Repr

/-- Why bytes do not decode. -/
inductive Reject where
  /-- Fewer bytes than the instruction has. -/
  | truncated
  /-- A dispatch byte with bit 6 or 7 set: a dispatch word has 6 bits (30_encoding.md R76). -/
  | wideDispatch
  /-- An outbound byte string that is neither command of 30_encoding.md R82. -/
  | unknownCommand
  /-- A byte string that does not begin with the signature 42 4D (30_encoding.md R71). -/
  | noSignature
  deriving DecidableEq, Repr

/-- `(hi << 8) | lo`, 16 bits (30_encoding.md R73, R74; 00_scope.md R14). -/
def assemble (hi lo : Byte) : Word := (hi.setWidth 16 <<< 8) ||| lo.setWidth 16

/-- `v[15:8]` (30_encoding.md R71). -/
def highByte (v : Word) : Byte := v.extractLsb' 8 8

/-- `v[7:0]` (30_encoding.md R71). -/
def lowByte (v : Word) : Byte := v.extractLsb' 0 8

/-- A row of the dispatch table (30_encoding.md R77): which bits are looked at, what they are, and the instruction,
whose operand is the byte `data`. -/
structure DispatchRow where
  mask : DispatchWord
  pattern : DispatchWord
  instr : Byte → Instr

/-- The dispatch table, row by row in the order of 30_encoding.md R77. -/
def dispatchTable : List DispatchRow :=
  [ ⟨0x3C, 0x04, fun _ => .start⟩,
    ⟨0x3C, 0x00, fun _ => .hold⟩,
    ⟨0x3A, 0x0A, fun _ => .scanT⟩,
    ⟨0x3B, 0x09, fun data => .scanB data⟩,
    ⟨0x3B, 0x08, fun _ => .scanW⟩,
    ⟨0x3A, 0x12, fun _ => .bodyT⟩,
    ⟨0x3B, 0x11, fun data => .bodyB data⟩,
    ⟨0x3B, 0x10, fun _ => .bodyW⟩,
    ⟨0x38, 0x18, fun _ => .norm⟩,
    ⟨0x38, 0x20, fun _ => .rslv⟩,
    ⟨0x38, 0x28, fun _ => .csum⟩,
    ⟨0x38, 0x30, fun _ => .sigc⟩,
    ⟨0x38, 0x38, fun _ => .rsvd7⟩ ]

/-- Whether a dispatch word is in a row: the bits the row looks at are the row's (30_encoding.md R77). -/
def DispatchRow.covers (r : DispatchRow) (d : DispatchWord) : Bool := d &&& r.mask == r.pattern

/-- The first row of a table that covers `d`; the table has one for every `d` (30_encoding.md R77). -/
def lookupRow (d : DispatchWord) : List DispatchRow → Option DispatchRow
  | [] => none
  | r :: rows => if r.covers d then some r else lookupRow d rows

/-- The operation that the dispatch word `d` selects, given the byte on offer (30_encoding.md R76, R77). -/
def decodeDispatch (d : DispatchWord) (data : Byte) : Option Instr :=
  (lookupRow d dispatchTable).map (fun r => r.instr data)

/-- Switch-to-passive-mode (30_encoding.md R82). -/
def passiveBytes : List Byte := [0x42, 0x4D, 0xE1, 0x00, 0x00, 0x01, 0x70]

/-- Request-one-reading (30_encoding.md R82). -/
def requestBytes : List Byte := [0x42, 0x4D, 0xE2, 0x00, 0x00, 0x01, 0x71]

/-- Format D: the dispatch byte (the word in its low six bits) and the operand byte (30_encoding.md R76; log 16). -/
def decodeD : List Byte → Except Reject (Instr × List Byte)
  | d :: data :: rest =>
    if d.extractLsb' 6 2 = 0 then
      match decodeDispatch (d.extractLsb' 0 6) data with
      | some i => .ok (i, rest)
      | none => .error .wideDispatch
    else .error .wideDispatch
  | _ => .error .truncated

/-- Format Q: one of the two constant strings (30_encoding.md R82). -/
def decodeQ (bytes : List Byte) : Except Reject (Instr × List Byte) :=
  if bytes.take 7 = passiveBytes then .ok (.cmdPassive, bytes.drop 7)
  else if bytes.take 7 = requestBytes then .ok (.cmdRequest, bytes.drop 7)
  else if bytes.length < 7 then .error .truncated
  else .error .unknownCommand

/-- Format W: the signature, the big-endian declared length `L`, then `L` bytes (30_encoding.md R71, R73, R75).
`L` is whatever the two bytes say: no wire byte value is illegal (30_encoding.md R81). -/
def decodeW : List Byte → Except Reject (Instr × List Byte)
  | s0 :: s1 :: lenH :: lenL :: rest =>
    if s0 = sig0 ∧ s1 = sig1 then
      if rest.length < (assemble lenH lenL).toNat then .error .truncated
      else .ok (.frame (assemble lenH lenL) (rest.take (assemble lenH lenL).toNat), rest.drop (assemble lenH lenL).toNat)
    else .error .noSignature
  | _ => .error .truncated

/-- The decoder: one instruction from the front of a byte string, and the bytes after it. -/
def decode : Format → List Byte → Except Reject (Instr × List Byte)
  | .dispatch, bytes => decodeD bytes
  | .command, bytes => decodeQ bytes
  | .wire, bytes => decodeW bytes

/-- The format an instruction is encoded in (spec/opcode_table.json, "format"). -/
def Instr.format : Instr → Format
  | .start | .hold | .scanT | .scanB _ | .scanW | .bodyT | .bodyB _ | .bodyW => .dispatch
  | .norm | .rslv | .csum | .sigc | .rsvd7 => .dispatch
  | .cmdPassive | .cmdRequest => .command
  | .frame _ _ => .wire

/-- The bytes of an instruction (30_encoding.md R71, R77, R82).  A bit the table marks `x` is written 0, and so is the
operand byte of a row that reads none (log 16). -/
def encode : Instr → List Byte
  | .start => [0x04, 0x00]
  | .hold => [0x00, 0x00]
  | .scanT => [0x0A, 0x00]
  | .scanB data => [0x09, data]
  | .scanW => [0x08, 0x00]
  | .bodyT => [0x12, 0x00]
  | .bodyB data => [0x11, data]
  | .bodyW => [0x10, 0x00]
  | .norm => [0x18, 0x00]
  | .rslv => [0x20, 0x00]
  | .csum => [0x28, 0x00]
  | .sigc => [0x30, 0x00]
  | .rsvd7 => [0x38, 0x00]
  | .cmdPassive => passiveBytes
  | .cmdRequest => requestBytes
  | .frame len body => sig0 :: sig1 :: highByte len :: lowByte len :: body

/-- How many bytes an instruction has: a dispatch byte and its operand byte (log 16), the seven of a command (30_encoding.md
R82), or a frame's total length `len + 4` (30_encoding.md R75). -/
def Instr.byteLength (i : Instr) : Nat :=
  match i.format with
  | .dispatch => 2
  | .command => 7
  | .wire =>
    match i with
    | .frame len _ => len.toNat + hdr
    | _ => 0

/-- The `n` bytes of a number, most significant first, as the table writes formats Q and W. -/
def bytesMsbFirst (w : Nat) : Nat → List Byte
  | 0 => []
  | n + 1 => BitVec.ofNat 8 (w / 256 ^ n) :: bytesMsbFirst w n

/-- Zero bytes after `bytes` until it has `n`. -/
def padTo (n : Nat) (bytes : List Byte) : List Byte := bytes ++ List.replicate (n - bytes.length) 0x00

/-- Zero bytes after the start of a frame, up to the end its own length field gives (30_encoding.md R75). -/
def padFrame (bytes : List Byte) : List Byte :=
  match padTo hdr bytes with
  | s0 :: s1 :: lenH :: lenL :: rest => padTo ((assemble lenH lenL).toNat + hdr) (s0 :: s1 :: lenH :: lenL :: rest)
  | short => short

/-- How the table numbers a row's bits, as a format and that format's bytes: a row of up to 8 bits is a dispatch word
(its operand byte zero); the bytes of the other rows are numbered first byte most significant (the rows' "note"),
a 56-bit word that is a command is one, and anything else is the start of a frame (log 16). -/
def tableBytes (nbits w : Nat) : Format × List Byte :=
  if nbits ≤ 8 then (.dispatch, [BitVec.ofNat 8 w, 0x00])
  else
    let bytes := bytesMsbFirst w ((nbits + 7) / 8)
    if bytes = passiveBytes ∨ bytes = requestBytes then (.command, bytes) else (.wire, padFrame bytes)

/-- The instruction the decoder reads from a table word. -/
def decodeTableWord (nbits w : Nat) : Option Instr :=
  match decode (tableBytes nbits w).1 (tableBytes nbits w).2 with
  | .ok (i, []) => some i
  | _ => none

end Sys2Proof
end

