-- ==== Sys2Proof/Machine/State.lean ====
section
/-! DEFINITION. State.lean: the state record of 10_state.md R20, the environment's part of the machine, the reasons a
step stops, and the state after reset. -/

namespace Sys2Proof.Machine

open Sys2Proof

/-- The phases (10_state.md R21), in the order of their codes.  `rsvd7` is the reserved code 7, which no operation
writes (30_encoding.md R79).  DESIGN CHOICE (log 4), safe: R21 would leave it out; the table has a row for it. -/
inductive Phase where
  | idle
  | scan
  | body
  | norm
  | rslv
  | csum
  | sigc
  | rsvd7
  deriving DecidableEq, Repr

/-- The variant of a frame (10_state.md R27, 30_encoding.md R85). -/
inductive Variant where
  | compact
  | extended
  deriving DecidableEq, Repr

/-- The five error kinds (60_exceptions.md R160).  `none` of `Option ErrKind` is the code 0, None (30_encoding.md R84);
codes 6 and 7 cannot be written down (30_encoding.md R80). -/
inductive ErrKind where
  | syncTimeout
  | zeroLength
  | bodyTimeout
  | checksumError
  | signatureError
  deriving DecidableEq, Repr

/-- A 32-byte register array (20_memory.md R50): cells at strictly rising offsets, none equal to what an unlisted
offset reads as (log 6). -/
abbrev Memory := List Host.Cell

/-- What an offset that is not listed reads as: 0x00, the value of every byte after reset (10_state.md R40) and after
START (40_sequencing.md R100) (log 6). -/
def Memory.unlisted : Byte := 0x00

/-- The output record `Out` of a clock step (00_scope.md R8, R10). -/
structure Out where
  ready : Bool
  busy : Bool
  done : Bool
  result : Option ErrKind
  deriving DecidableEq, Repr

/-- The machine's state: the twelve members of 10_state.md R20, then what the spec calls parameter, environment and
output and the model holds as fields of its own. -/
structure State where
  /-- The sequencer (10_state.md R21, R22). -/
  phase : Phase
  /-- `win[0]` (10_state.md R23). -/
  win0 : Byte
  /-- `win[1]` (10_state.md R23). -/
  win1 : Byte
  /-- The frame buffer (10_state.md R24). -/
  buf : Memory
  /-- Bytes of the current frame in `buf` (10_state.md R25). -/
  cnt : BitVec 6
  /-- The declared length (10_state.md R26). -/
  len : Word
  /-- The variant of the frame being processed (10_state.md R27). -/
  var : Variant
  /-- The checksum accumulator (10_state.md R28). -/
  acc : Word
  /-- The elapsed-time counter, in ticks (10_state.md R29; log 7). -/
  tmr : Nat
  /-- The most recently validated frame (10_state.md R30). -/
  stFrame : Memory
  /-- Its variant (10_state.md R31). -/
  stVar : Variant
  /-- Whether the store holds a frame (10_state.md R32). -/
  stValid : Bool
  /-- The last error code (10_state.md R33). -/
  lastErr : Option ErrKind
  /-- The constant configuration (00_scope.md R6; log 3). -/
  cfg : Cfg
  /-- The Byte Source's queue, the next byte first (00_scope.md R11, 20_memory.md R51). -/
  source : List Byte
  /-- The bytes the host has sent to the sensor, oldest first (30_encoding.md R82; log 9). -/
  outbound : List Byte
  /-- The environment's pending acts, oldest first (log 1). -/
  events : List Event
  /-- How many free acts have been drawn (log 2). -/
  fresh : Nat
  /-- The outputs of the latest clock step (00_scope.md R10; log 10). -/
  out : Out
  deriving DecidableEq, Repr

/-- Why the machine stops with a fault. -/
inductive Fault where
  /-- Raised by BODY.B and CSUM where they would address `buf` above offset 31, an offset that does not exist
  (20_memory.md R59: neither a wrap nor a clamp is allowed).  Safe: no state a run reaches raises it (log 11). -/
  | bufferOffset (offset : Nat)
  deriving DecidableEq, Repr

/-- Why the machine refuses. -/
inductive Refusal where
  /-- Raised by `exec` for an instruction that has no meaning yet.  Safe.  No arm of `exec` raises it. -/
  | notModelled (mnemonic : String)
  /-- Raised by `step` for bytes on the outbound line that are not one command of 30_encoding.md R82, the only two the
  spec gives.  Safe: the machine stops where the spec gives the bytes no meaning (log 12). -/
  | undecodable (why : Reject)
  /-- Raised by `step` for a command on the outbound line with bytes after it.  Safe (log 12). -/
  | trailingBytes (count : Nat)
  deriving DecidableEq, Repr

/-- The machine after reset: every register of 10_state.md R20 holds zero (10_state.md R40).  The six fields of the
model's own hold the values log 3 and log 5 name. -/
def State.reset : State :=
  { phase := .idle
    win0 := 0x00
    win1 := 0x00
    buf := []
    cnt := 0
    len := 0
    var := .compact
    acc := 0
    tmr := 0
    stFrame := []
    stVar := .compact
    stValid := false
    lastErr := none
    cfg := Config.budgets
    source := []
    outbound := []
    events := []
    fresh := 0
    out := { ready := false, busy := false, done := false, result := none } }

end Sys2Proof.Machine
end

