-- ==== Sys2Proof/Machine/Ops.lean ====
section
/-! DEFINITION. Ops.lean: the named operations over memory and registers that the meanings are made of, the two
procedures that end a read (46_reading_store.md R151, R152: COMMIT, and FAIL(k), which is taking an exception), and
the reset of 70_reset_and_hazards.md R190. -/

namespace Sys2Proof.Machine

open Sys2Proof

/-! ### The 32-byte register arrays -/

/-- `MemRead(a, 1)` (00_scope.md R14). -/
def Memory.read (m : Memory) (a : Nat) : Byte :=
  match m with
  | [] => Memory.unlisted
  | (k, v) :: cells => if k = a then v else Memory.read cells a

/-- The cells of the `n` offsets from `a` on, where `f` says what each holds. -/
def Memory.tabulateFrom (f : Nat → Byte) : Nat → Nat → Memory
  | 0, _ => []
  | n + 1, a =>
    if f a = Memory.unlisted then Memory.tabulateFrom f n (a + 1)
    else (a, f a) :: Memory.tabulateFrom f n (a + 1)

/-- The memory whose 32 offsets hold what `f` says: the one canonical list of cells (log 6). -/
def Memory.tabulate (f : Nat → Byte) : Memory := Memory.tabulateFrom f bufCap 0

/-- `MemWrite(a, 1, v)` for `a` from 0 to 31 (00_scope.md R14). -/
def Memory.write (m : Memory) (a : Nat) (v : Byte) : Memory :=
  Memory.tabulate fun i => if i = a then v else m.read i

/-- All 32 bytes 0x00 (40_sequencing.md R100). -/
def Memory.clear : Memory := []

/-- The offset whose byte comes to offset `i` in the pair swap: the other of the pair for 2 to 31, itself for the
signature offsets 0 and 1 (43_byte_order_normalizer.md R130). -/
def swapOffset (i : Nat) : Nat :=
  if i < 2 then i else if i % 2 = 0 then i + 1 else i - 1

/-- All 15 pairs exchanged at once (43_byte_order_normalizer.md R130). -/
def Memory.swapPairs (m : Memory) : Memory := Memory.tabulate fun i => m.read (swapOffset i)

/-- Cells at strictly rising offsets from `lo` on, below 32, none holding what an unlisted offset reads as. -/
def Memory.wfFrom : Nat → Memory → Bool
  | _, [] => true
  | lo, (a, v) :: cells => lo ≤ a && a < bufCap && v != Memory.unlisted && Memory.wfFrom (a + 1) cells

/-- The canonical form of a memory (log 6): two memories in it are equal when all their bytes are. -/
def Memory.wf (m : Memory) : Bool := Memory.wfFrom 0 m

/-! ### Outputs and the Byte Source -/

/-- The outputs of a clock step that does not end a read: `done` and `result` are 0 (00_scope.md R10). -/
def State.drive (s : State) (ready busy : Bool) : State :=
  { s with out := { ready := ready, busy := busy, done := false, result := none } }

/-- The byte on offer is taken and the stream advances (20_memory.md R51). -/
def State.takeByte (s : State) : State := { s with source := s.source.drop 1 }

/-- The sensor side appends bytes to the Byte Source (00_scope.md R11, 20_memory.md R61). -/
def State.receive (s : State) (bytes : List Byte) : State := { s with source := s.source ++ bytes }

/-- The host sends bytes to the sensor; the block has no part in it (30_encoding.md R82, 70_reset_and_hazards.md R195;
log 9). -/
def State.transmit (s : State) (bytes : List Byte) : State := { s with outbound := s.outbound ++ bytes }

/-! ### How a read ends -/

/-- What both ends of a read do: record the code, return to IDLE, pulse `done` with the code as `result`
(46_reading_store.md R151, R152). -/
def State.finish (s : State) (code : Option ErrKind) : State :=
  { s with phase := .idle, lastErr := code, out := { s.out with done := true, result := code } }

/-- FAIL(k), the entry of an exception (46_reading_store.md R152, 60_exceptions.md R165): the kind goes to `last_err`
and `result`, the phase to IDLE; `st_frame`, `st_var` and `st_valid` are not written.  The return from it is the next
START, which resumes nothing (60_exceptions.md R166). -/
def State.fail (s : State) (k : ErrKind) : State := s.finish (some k)

/-- COMMIT (46_reading_store.md R151): the whole normalized buffer and its variant replace the stored frame. -/
def State.commit (s : State) : State :=
  ({ s with stFrame := s.buf, stVar := s.var, stValid := true }).finish none

/-! ### The wait loops -/

/-- One tick of a wait loop's time budget, and the error `k` when the budget is spent (41_frame_scanner.md R111,
42_frame_reader.md R123): compared after the increment, with `>=`. -/
def State.countTick (s : State) (budget : Nat) (k : ErrKind) : State :=
  if budget ≤ s.tmr + 1 then ({ s with tmr := s.tmr + 1 }).fail k else { s with tmr := s.tmr + 1 }

/-! ### The start of a read, and reset -/

/-- Every working register zero (40_sequencing.md R100). -/
def State.clearWorking (s : State) : State :=
  { s with win0 := 0x00, win1 := 0x00, buf := Memory.clear, cnt := 0, len := 0, var := .compact, acc := 0, tmr := 0 }

/-- The store as it is after reset: no frame, no error (10_state.md R40). -/
def State.clearStore (s : State) : State :=
  { s with stFrame := Memory.clear, stVar := .compact, stValid := false, lastErr := none }

/-- A clock step with `rst = 1` (70_reset_and_hazards.md R190, R192): every register takes its reset value, `busy` shows
the phase before, nothing is taken from the Byte Source, and there is no `done`. -/
def State.resetStep (s : State) : State :=
  ({ s.clearWorking.clearStore with phase := .idle }).drive false (s.phase != Phase.idle)

end Sys2Proof.Machine
end

