-- ==== Sys2Proof/Machine/Operands.lean ====
section
/-! DEFINITION. Operands.lean: what an operation reads: the input record of a step (00_scope.md R8, R9, R11), the
dispatch word (30_encoding.md R76), and the 16-bit values of the buffer (30_encoding.md R73, R74). -/

namespace Sys2Proof.Machine

open Sys2Proof

/-- The code of a phase (10_state.md R21). -/
def Phase.code : Phase → BitVec 3
  | .idle => 0
  | .scan => 1
  | .body => 2
  | .norm => 3
  | .rslv => 4
  | .csum => 5
  | .sigc => 6
  | .rsvd7 => 7

/-- The phase of a code (10_state.md R21). -/
def Phase.ofCode (c : BitVec 3) : Phase :=
  if c = 0 then .idle else if c = 1 then .scan else if c = 2 then .body else if c = 3 then .norm
  else if c = 4 then .rslv else if c = 5 then .csum else if c = 6 then .sigc else .rsvd7

/-- The code of a variant (30_encoding.md R85). -/
def Variant.code : Variant → BitVec 1
  | .compact => 0
  | .extended => 1

/-- The code of an error kind or of None, as `result` and `last_err` show it (30_encoding.md R84). -/
def resultCode : Option ErrKind → BitVec 3
  | none => 0
  | some .syncTimeout => 1
  | some .zeroLength => 2
  | some .bodyTimeout => 3
  | some .checksumError => 4
  | some .signatureError => 5

/-- `valid`: the Byte Source has at least one byte (00_scope.md R9, R11). -/
def State.valid (s : State) : Bool := !s.source.isEmpty

/-- `data`: the next byte of the Byte Source.  With `valid = 0` no rule reads it (93_implementation_defined.md U5);
the model samples 0x00 there (log 13). -/
def State.data (s : State) : Byte := s.source.headD 0x00

/-- The dispatch word `{phase[2:0], start, tick, valid}` (30_encoding.md R76). -/
def dispatchWord (phase : Phase) (start tick valid : Bool) : DispatchWord :=
  phase.code ++ BitVec.ofBool start ++ BitVec.ofBool tick ++ BitVec.ofBool valid

/-- The bytes a clock step presents to the decoder: the dispatch byte, and the operand byte on offer (log 16). -/
def State.fetchBytes (s : State) (start tick : Bool) : List Byte :=
  [(dispatchWord s.phase start tick s.valid).setWidth 8, s.data]

/-- `MemRead(a, 2) = buf[a] | (buf[a+1] << 8)`, for every parity of `a` (00_scope.md R14, 20_memory.md R55). -/
def Memory.read16 (m : Memory) (a : Nat) : Word := assemble (m.read (a + 1)) (m.read a)

/-- The sum mod 65536 of the `n` bytes at offsets 0 to `n - 1`, each extended with zeros (45_checksum_validator.md R140,
R141). -/
def Memory.sumTo (m : Memory) : Nat → Word
  | 0 => 0
  | n + 1 => m.sumTo n + (m.read n).setWidth 16

/-- The offset of the checksum field, `declared_length + 4 - 2` (45_checksum_validator.md R141, R142; 90_conflicts.md C1). -/
def ckOffset (len : Word) : Nat := len.toNat + hdr - ckW

/-- The computed checksum: every byte before the checksum field (45_checksum_validator.md R141). -/
def computedSum (m : Memory) (len : Word) : Word := m.sumTo (ckOffset len)

/-- The received checksum (45_checksum_validator.md R142). -/
def receivedSum (m : Memory) (len : Word) : Word := m.read16 (ckOffset len)

/-- The declared length after BODY.B has taken `data` as byte number `n`, from the buffer and the length before it: the
fourth byte completes it, the third being in the buffer, big-endian (42_frame_reader.md R120, 30_encoding.md R73). -/
def lengthAfter (m : Memory) (len : Word) (n : Nat) (data : Byte) : Word :=
  if n = 4 then assemble (m.read 2) data else len

end Sys2Proof.Machine
end

