-- ==== Sys2Proof/Machine/Flags.lean ====
section
/-! DEFINITION. Flags.lean: the tests the operations decide by, and the outputs as 00_scope.md R10 and 10_state.md R35
define them from the phase.  The block has four status flags and no condition codes (10_state.md R35). -/

namespace Sys2Proof.Machine

open Sys2Proof

/-- `busy = (phase != IDLE)` (00_scope.md R10, 10_state.md R35). -/
def State.busy (s : State) : Bool := s.phase != .idle

/-- A wait phase: SCAN or BODY (00_scope.md R17). -/
def Phase.isWait (p : Phase) : Bool := p == .scan || p == .body

/-- A post phase: NORM, RSLV, CSUM or SIGC (00_scope.md R17). -/
def Phase.isPost (p : Phase) : Bool := p == .norm || p == .rslv || p == .csum || p == .sigc

/-- `ready`: a wait phase, no tick and no reset (00_scope.md R10). -/
def State.ready (s : State) (rst tick : Bool) : Bool := s.phase.isWait && !tick && !rst

/-- The document's error flag, `last_err != 0` (10_state.md R35). -/
def State.errorFlag (s : State) : Bool := s.lastErr.isSome

/-- The window after the shift equals the signature (41_frame_scanner.md R110). -/
def signatureSeen (w0 w1 : Byte) : Bool := w0 == sig0 && w1 == sig1

/-- The signature re-check (45_checksum_validator.md R145). -/
def signatureHolds (m : Memory) : Bool := m.read 0 == sig0 && m.read 1 == sig1

/-- The checksum test (45_checksum_validator.md R140). -/
def checksumHolds (m : Memory) (len : Word) : Bool := computedSum m len == receivedSum m len

/-- How a BODY.B that has brought the byte count to `n` goes on, the tests in the order of 42_frame_reader.md R120; the
sum `len' + 4` is exact (42_frame_reader.md R121). -/
inductive BodyVerdict where
  | zeroLength
  | complete
  | full
  | more
  deriving DecidableEq, Repr

/-- The three tests of BODY.B (42_frame_reader.md R120). -/
def bodyVerdict (n : Nat) (len : Word) : BodyVerdict :=
  if n = 4 ∧ len = 0 then .zeroLength
  else if 4 ≤ n ∧ n = len.toNat + hdr then .complete
  else if n = bufCap then .full
  else .more

/-- Variant of a declared length (44_variant_resolver.md R135). -/
def variantOf (len : Word) : Variant := if len = extLen then .extended else .compact

end Sys2Proof.Machine
end

