-- ==== Sys2Proof/Machine/Link.lean ====
section
/-! DEFINITION. Link.lean: the byte strings on the serial line: the two outbound commands the host sends
(30_encoding.md R82) and the inbound frame the sensor side appends to the Byte Source (30_encoding.md R71, R86).  None is
a clock step: no register of the block changes and no output is driven. -/

namespace Sys2Proof.Machine

open Sys2Proof

/-- CMD.PASSIVE (30_encoding.md R82): "sent to sensor", by the host (70_reset_and_hazards.md R195; log 9). -/
def execCmdPassive (s : State) : Host.Outcome State Fault Refusal :=
  .next (s.transmit passiveBytes)

/-- CMD.REQUEST (30_encoding.md R82): "sent to sensor", by the host (70_reset_and_hazards.md R195; log 9). -/
def execCmdRequest (s : State) : Host.Outcome State Fault Refusal :=
  .next (s.transmit requestBytes)

/-- FRAME (30_encoding.md R71, R86): its bytes come on offer, in order, behind those already waiting; SCAN.B and BODY.B
take them in later clock steps (00_scope.md R11; log 8). -/
def execFrame (len : Word) (body : List Byte) (s : State) : Host.Outcome State Fault Refusal :=
  .next (s.receive (encode (.frame len body)))

end Sys2Proof.Machine
end

