-- ==== Sys2Proof/Machine/PostStages.lean ====
section
/-! DEFINITION. PostStages.lean: the Byte-Order Normalizer (NORM), the Variant Resolver (RSLV) and the Checksum Validator
(CSUM, SIGC): 43_byte_order_normalizer.md R130, 44_variant_resolver.md R135, 45_checksum_validator.md R140 to R145. -/

namespace Sys2Proof.Machine

open Sys2Proof

/-- NORM (43_byte_order_normalizer.md R130). -/
def execNorm (s : State) : Host.Outcome State Fault Refusal :=
  .next (({ s with buf := s.buf.swapPairs, phase := .rslv }).drive false true)

/-- RSLV (44_variant_resolver.md R135): the length is read from the normalized buffer. -/
def execRslv (s : State) : Host.Outcome State Fault Refusal :=
  .next (({ s with var := variantOf (s.buf.read16 2), phase := .csum }).drive false true)

/-- CSUM (45_checksum_validator.md R140).  `len` is at most 28 in phase CSUM; above that the field's last offset does not
exist (20_memory.md R59; log 11). -/
def execCsum (s : State) : Host.Outcome State Fault Refusal :=
  if ckOffset s.len + 1 < bufCap then
    .next
      (let summed := { s.drive false true with acc := computedSum s.buf s.len }
       if checksumHolds s.buf s.len then { summed with phase := .sigc } else summed.fail .checksumError)
  else .fault (.bufferOffset (ckOffset s.len + 1))

/-- SIGC (45_checksum_validator.md R145). -/
def execSigc (s : State) : Host.Outcome State Fault Refusal :=
  .next
    (let checked := s.drive false true
     if signatureHolds s.buf then checked.commit else checked.fail .signatureError)

end Sys2Proof.Machine
end

