-- ==== Sys2Proof/Machine/Reader.lean ====
section
/-! DEFINITION. Reader.lean: the Frame Reader, BODY.B, BODY.T and BODY.W (42_frame_reader.md R120 to R124). -/

namespace Sys2Proof.Machine

open Sys2Proof

/-- The byte stored at offset `cnt`, the count raised, the length latched (42_frame_reader.md R120). -/
def State.storeByte (s : State) (data : Byte) : State :=
  { s with
    buf := s.buf.write s.cnt.toNat data
    cnt := BitVec.ofNat 6 (s.cnt.toNat + 1)
    len := lengthAfter s.buf s.len (s.cnt.toNat + 1) data }

/-- Where the reader goes after a byte (42_frame_reader.md R120). -/
def State.followVerdict (s : State) : BodyVerdict → State
  | .zeroLength => s.fail .zeroLength
  | .complete => { s with phase := .norm }
  | .full => s.fail .bodyTimeout
  | .more => s

/-- BODY.B (42_frame_reader.md R120).  `cnt` is at most 31 in phase BODY; above that the offset does not exist
(20_memory.md R59; log 11). -/
def execBodyB (data : Byte) (s : State) : Host.Outcome State Fault Refusal :=
  if s.cnt.toNat < bufCap then
    .next (((s.takeByte.drive true true).storeByte data).followVerdict
      (bodyVerdict (s.cnt.toNat + 1) (lengthAfter s.buf s.len (s.cnt.toNat + 1) data)))
  else .fault (.bufferOffset s.cnt.toNat)

/-- BODY.T (42_frame_reader.md R123). -/
def execBodyT (s : State) : Host.Outcome State Fault Refusal :=
  .next ((s.drive false true).countTick s.cfg.tBody .bodyTimeout)

/-- BODY.W (42_frame_reader.md R124). -/
def execBodyW (s : State) : Host.Outcome State Fault Refusal :=
  .next (s.drive true true)

end Sys2Proof.Machine
end

