-- ==== Sys2Proof/Machine/Scanner.lean ====
section
/-! DEFINITION. Scanner.lean: the Frame Scanner, SCAN.B, SCAN.T and SCAN.W (41_frame_scanner.md R110 to R112). -/

namespace Sys2Proof.Machine

open Sys2Proof

/-- The window shifted left by one with the new byte in it (41_frame_scanner.md R110). -/
def State.shiftWindow (s : State) (data : Byte) : State := { s with win0 := s.win1, win1 := data }

/-- What a match does: the signature goes into the buffer, two bytes are counted, the body's time budget starts, and the
Frame Reader is next (41_frame_scanner.md R110). -/
def State.lockFrame (s : State) : State :=
  { s with buf := (s.buf.write 0 sig0).write 1 sig1, cnt := 2, tmr := 0, phase := .body }

/-- SCAN.B (41_frame_scanner.md R110). -/
def execScanB (data : Byte) (s : State) : Host.Outcome State Fault Refusal :=
  .next
    (let taken := (s.takeByte.drive true true).shiftWindow data
     if signatureSeen s.win1 data then taken.lockFrame else taken)

/-- SCAN.T (41_frame_scanner.md R111). -/
def execScanT (s : State) : Host.Outcome State Fault Refusal :=
  .next ((s.drive false true).countTick s.cfg.tScan .syncTimeout)

/-- SCAN.W (41_frame_scanner.md R112). -/
def execScanW (s : State) : Host.Outcome State Fault Refusal :=
  .next (s.drive true true)

end Sys2Proof.Machine
end

