-- ==== Sys2Proof/Machine/Sequencing.lean ====
section
/-! DEFINITION. Sequencing.lean: START, HOLD and the reserved row RSVD7 (40_sequencing.md R100, R101; 30_encoding.md R79). -/

namespace Sys2Proof.Machine

open Sys2Proof

/-- START (40_sequencing.md R100). -/
def execStart (s : State) : Host.Outcome State Fault Refusal :=
  .next (({ s.clearWorking with phase := .scan }).drive false false)

/-- HOLD (40_sequencing.md R101). -/
def execHold (s : State) : Host.Outcome State Fault Refusal :=
  .next (s.drive false false)

/-- RSVD7 (30_encoding.md R79): "execute `phase <- IDLE` and write nothing else, with `done = 0`"; `ready` and `busy`
as 00_scope.md R10 gives them in that phase (log 4). -/
def execRsvd7 (s : State) : Host.Outcome State Fault Refusal :=
  .next (({ s with phase := .idle }).drive false true)

end Sys2Proof.Machine
end

