-- ==== Sys2Proof/Machine/Dispatch.lean ====
section
/-! DEFINITION. Dispatch.lean: the meaning of each instruction, one arm per constructor. -/

namespace Sys2Proof.Machine

open Sys2Proof

def exec (i : Instr) (s : State) : Host.Outcome State Fault Refusal :=
  match i with
  | .start => Sys2Proof.Machine.execStart s
  | .hold => Sys2Proof.Machine.execHold s
  | .scanT => Sys2Proof.Machine.execScanT s
  | .scanB data => Sys2Proof.Machine.execScanB data s
  | .scanW => Sys2Proof.Machine.execScanW s
  | .bodyT => Sys2Proof.Machine.execBodyT s
  | .bodyB data => Sys2Proof.Machine.execBodyB data s
  | .bodyW => Sys2Proof.Machine.execBodyW s
  | .norm => Sys2Proof.Machine.execNorm s
  | .rslv => Sys2Proof.Machine.execRslv s
  | .csum => Sys2Proof.Machine.execCsum s
  | .sigc => Sys2Proof.Machine.execSigc s
  | .rsvd7 => Sys2Proof.Machine.execRsvd7 s
  | .cmdPassive => Sys2Proof.Machine.execCmdPassive s
  | .cmdRequest => Sys2Proof.Machine.execCmdRequest s
  | .frame len body => Sys2Proof.Machine.execFrame len body s

end Sys2Proof.Machine
end

