-- ==== Sys2Proof/Machine/Fetch.lean ====
section
/-! DEFINITION. Fetch.lean: which act of the environment a step performs, how a clock step selects its operation, and how
an instruction's table word is placed so that the next step runs it (log 1, 2, 12, 16). -/

namespace Sys2Proof.Machine

open Sys2Proof

/-- The next act of the environment: the oldest placed one, or a free one where none is placed (log 1, 2). -/
def State.nextEvent (s : State) : Event :=
  match s.events with
  | e :: _ => e
  | [] => Config.freeEvent s.fresh

/-- The state with that act used up. -/
def State.dropEvent (s : State) : State :=
  match s.events with
  | _ :: events => { s with events := events }
  | [] => { s with fresh := s.fresh + 1 }

/-- A clock step (00_scope.md R8): the reset when `rst = 1`, else the operation the dispatch word selects (30_encoding.md
R76). -/
def clockStep (rst start tick : Bool) (s : State) : Host.Outcome State Fault Refusal :=
  if rst then .next s.resetStep
  else
    match decode .dispatch (s.fetchBytes start tick) with
    | .ok (i, _) => exec i s
    | .error why => .refused (.undecodable why)

/-- Bytes come in on the line: a frame as the instruction it is, any other bytes as bytes, since no wire byte value is
illegal (30_encoding.md R81; log 12). -/
def inboundStep (bytes : List Byte) (s : State) : Host.Outcome State Fault Refusal :=
  match decode .wire bytes with
  | .ok (i, []) => exec i s
  | _ => .next (s.receive bytes)

/-- The host sends a command (30_encoding.md R82; log 12). -/
def outboundStep (bytes : List Byte) (s : State) : Host.Outcome State Fault Refusal :=
  match decode .command bytes with
  | .ok (i, []) => exec i s
  | .ok (_, rest) => .refused (.trailingBytes rest.length)
  | .error why => .refused (.undecodable why)

/-- One act of the environment. -/
def perform (e : Event) (s : State) : Host.Outcome State Fault Refusal :=
  match e with
  | .clock rst start tick => clockStep rst start tick s
  | .inbound bytes => inboundStep bytes s
  | .outbound bytes => outboundStep bytes s

/-- The state in which the next step runs the instruction whose bytes are `bytes` in format `f`: a dispatch word is
presented by setting the phase, the strobes of the next clock step, and whether the Byte Source has a byte (the operand
byte); the bytes of the other formats are placed on their line (log 2, 16). -/
def State.place (s : State) (f : Format) (bytes : List Byte) : State :=
  match f with
  | .dispatch =>
    let d := bytes.headD 0x00
    { s with
      phase := Phase.ofCode (d.extractLsb' 3 3)
      source := if d.getLsbD 0 then bytes.drop 1 else []
      events := .clock false (d.getLsbD 2) (d.getLsbD 1) :: s.events }
  | .command => { s with events := .outbound bytes :: s.events }
  | .wire => { s with events := .inbound bytes :: s.events }

end Sys2Proof.Machine
end

