-- ==== Sys2Proof/Machine/Ports.lean ====
section
/-! DEFINITION. Ports.lean: the read ports, combinational and without side effect (46_reading_store.md R154, R155). -/

namespace Sys2Proof.Machine

open Sys2Proof

/-- What the frame port shows (46_reading_store.md R154). -/
structure FramePort where
  valid : Bool
  var : Variant
  lastErr : Option ErrKind
  bytes : List Byte
  deriving DecidableEq, Repr

/-- The frame port: `st_valid`, `st_var`, `last_err` and the 32 bytes of `st_frame` (46_reading_store.md R154). -/
def State.framePort (s : State) : FramePort :=
  { valid := s.stValid, var := s.stVar, lastErr := s.lastErr, bytes := (List.range bufCap).map s.stFrame.read }

/-- `fld_ok` (46_reading_store.md R155). -/
def State.fldOk (s : State) : Bool := s.stValid

/-- The field port: `fld(k) = st_frame[2k] | (st_frame[2k+1] << 8)` for `k` from 1 to 15 while a frame is stored, no
value otherwise (46_reading_store.md R155); other indices are not offered (93_implementation_defined.md U11). -/
def State.fld (s : State) (k : Nat) : Option Word :=
  if s.stValid = true ∧ 1 ≤ k ∧ k ≤ 15 then some (s.stFrame.read16 (2 * k)) else none

end Sys2Proof.Machine
end

