-- ==== Sys2Proof/Machine/Step.lean ====
section
/-! DEFINITION. Step.lean: one step of the machine. -/

namespace Sys2Proof.Machine

open Sys2Proof

/-- One step: the next act of the environment.  A clock step executes exactly one operation (00_scope.md R8). -/
def step (s : State) : Host.Outcome State Fault Refusal := perform s.nextEvent s.dropEvent

/-- `s` with the instruction of a table word placed where the next step fetches it. -/
def State.withFetchWord (s : State) (nbits w : Nat) : State :=
  s.place (tableBytes nbits w).1 (tableBytes nbits w).2

end Sys2Proof.Machine
end

