-- ==== Sys2Proof/Safety.lean ====
section
/-! DEFINITION. Safety.lean: what counts as a safe run, and the vocabulary the statements use: the invariants of
10_state.md R39, the states a run reaches, the operation a clock step must select, the phase transition table, and runs
of operations. -/

namespace Sys2Proof.Machine

open Sys2Proof

/-! ### Comparing states -/

/-- The stored frame, its variant and its valid bit are the same (46_reading_store.md R153). -/
def State.storeEq (s t : State) : Prop :=
  t.stFrame = s.stFrame ∧ t.stVar = s.stVar ∧ t.stValid = s.stValid

/-- The configuration and the environment's record, the Byte Source apart, are the same. -/
def State.envEq (s t : State) : Prop :=
  t.cfg = s.cfg ∧ t.outbound = s.outbound ∧ t.events = s.events ∧ t.fresh = s.fresh

/-! ### The invariants of 10_state.md R39 -/

/-- R39 (a). -/
def State.scanEmpty (s : State) : Prop :=
  s.phase = .scan → s.cnt = 0 ∧ s.len = 0 ∧ ∀ a, a < 32 → s.buf.read a = 0x00

/-- R39 (b). -/
def State.bodyProgress (s : State) : Prop :=
  s.phase = .body →
    2 ≤ s.cnt.toNat ∧ s.cnt.toNat ≤ 31 ∧ s.buf.read 0 = 0x42 ∧ s.buf.read 1 = 0x4D ∧
      (∀ a, s.cnt.toNat ≤ a → a < 32 → s.buf.read a = 0x00) ∧ s.tmr < s.cfg.tBody ∧
      (4 ≤ s.cnt.toNat →
        s.len = assemble (s.buf.read 2) (s.buf.read 3) ∧ 1 ≤ s.len.toNat ∧ s.cnt.toNat < s.len.toNat + 4)

/-- R39 (c). -/
def State.postComplete (s : State) : Prop :=
  s.phase.isPost = true →
    1 ≤ s.len.toNat ∧ s.len.toNat ≤ 28 ∧ s.cnt.toNat = s.len.toNat + 4 ∧ s.buf.read 0 = 0x42 ∧ s.buf.read 1 = 0x4D

/-- R39 (d). -/
def State.lengthNormalized (s : State) : Prop :=
  s.phase = .rslv ∨ s.phase = .csum ∨ s.phase = .sigc → s.buf.read16 2 = s.len

/-- R39 (e). -/
def State.scanInBudget (s : State) : Prop := s.phase = .scan → s.tmr < s.cfg.tScan

/-- R39 (f). -/
def State.storeValidated (s : State) : Prop :=
  s.stValid = true →
    s.stFrame.read 0 = 0x42 ∧ s.stFrame.read 1 = 0x4D ∧ 1 ≤ (s.stFrame.read16 2).toNat ∧
      (s.stFrame.read16 2).toNat ≤ 28 ∧ (s.stVar = .extended ↔ s.stFrame.read16 2 = 28) ∧
      s.stFrame.sumTo ((s.stFrame.read16 2).toNat + 2) = s.stFrame.read16 ((s.stFrame.read16 2).toNat + 2)

/-- R39 (g). -/
def State.errorLegal (s : State) : Prop := (resultCode s.lastErr).toNat ≤ 5

/-- All of 10_state.md R39. -/
structure ReachableFacts (s : State) : Prop where
  scanEmpty : s.scanEmpty
  bodyProgress : s.bodyProgress
  postComplete : s.postComplete
  lengthNormalized : s.lengthNormalized
  scanInBudget : s.scanInBudget
  storeValidated : s.storeValidated
  errorLegal : s.errorLegal

/-! ### What the invariant adds, so that every step keeps it -/

/-- After the signature has matched the window holds it (10_state.md R23). -/
def State.windowLocked (s : State) : Prop :=
  s.phase = .body ∨ s.phase.isPost = true → s.win0 = 0x42 ∧ s.win1 = 0x4D

/-- The complete frame before NORM: length in wire order, zeros beyond the frame (42_frame_reader.md R125). -/
def State.wireComplete (s : State) : Prop :=
  s.phase = .norm →
    s.len = assemble (s.buf.read 2) (s.buf.read 3) ∧ ∀ a, s.len.toNat + 4 ≤ a → a < 32 → s.buf.read a = 0x00

/-- Zeros beyond an even frame after NORM (43_byte_order_normalizer.md R132). -/
def State.tailZero (s : State) : Prop :=
  s.phase = .rslv ∨ s.phase = .csum ∨ s.phase = .sigc →
    lenEven s.len = true → ∀ a, s.len.toNat + 4 ≤ a → a < 32 → s.buf.read a = 0x00

/-- The variant after RSLV (44_variant_resolver.md R135). -/
def State.variantResolved (s : State) : Prop :=
  s.phase = .csum ∨ s.phase = .sigc → (s.var = .extended ↔ s.len = 28)

/-- The checksum test has passed (45_checksum_validator.md R140). -/
def State.sumMatches (s : State) : Prop :=
  s.phase = .sigc → computedSum s.buf s.len = receivedSum s.buf s.len

/-- Zeros beyond a stored frame of even length (43_byte_order_normalizer.md R132, 46_reading_store.md R155). -/
def State.storeTailZero (s : State) : Prop :=
  s.stValid = true → lenEven (s.stFrame.read16 2) = true →
    ∀ a, (s.stFrame.read16 2).toNat + 4 ≤ a → a < 32 → s.stFrame.read a = 0x00

/-- Both register arrays in their canonical form (log 6). -/
def State.memoriesCanonical (s : State) : Prop := s.buf.wf = true ∧ s.stFrame.wf = true

/-- The reserved phase code is not in the register (30_encoding.md R79). -/
def State.phaseLegal (s : State) : Prop := s.phase ≠ .rsvd7

/-- The invariant of the machine: 10_state.md R39 and what it rests on. -/
structure Invariant (s : State) : Prop where
  facts : ReachableFacts s
  windowLocked : s.windowLocked
  wireComplete : s.wireComplete
  tailZero : s.tailZero
  variantResolved : s.variantResolved
  sumMatches : s.sumMatches
  storeTailZero : s.storeTailZero
  memoriesCanonical : s.memoriesCanonical
  phaseLegal : s.phaseLegal
  cfgLegal : s.cfg.wf

/-! ### Runs -/

/-- A machine just after reset, in any environment and with any legal budgets. -/
def State.isInitial (s : State) : Prop :=
  s.cfg.wf ∧
    s = { State.reset with
          cfg := s.cfg, source := s.source, outbound := s.outbound, events := s.events, fresh := s.fresh }

/-- The states a run reaches, from reset in any environment. -/
inductive Reachable : State → Prop where
  | initial (s : State) (h : s.isInitial) : Reachable s
  | step (s t : State) (hs : Reachable s) (ht : Machine.step s = .next t) : Reachable t

/-- An outcome in which the machine goes on. -/
def goesOn (o : Host.Outcome State Fault Refusal) : Prop := ∃ t, o = .next t

/-- An act of the environment during which a read goes on: a clock step without reset, or an arrival of bytes. -/
def letsReadGoOn : Event → Bool
  | .clock rst _ _ => !rst
  | .inbound _ => true
  | .outbound _ => false

/-- How many clock steps of a list of acts carry a tick. -/
def tickCount : List Event → Nat
  | [] => 0
  | .clock _ _ tick :: es => (if tick then 1 else 0) + tickCount es
  | _ :: es => tickCount es

/-- A run of operations, each on the state the one before left, stopping at the first that does not go on. -/
def runOps : List Instr → State → Host.Outcome State Fault Refusal
  | [], s => .next s
  | i :: is, s =>
    match exec i s with
    | .next t => runOps is t
    | .fault f => .fault f
    | .refused r => .refused r

/-! ### What a clock step selects, and where it goes -/

/-- The selection by priority within the phase (30_encoding.md R76): in IDLE only `start`, in a wait phase `tick` and then
`valid`, in a post phase nothing. -/
def selectOperation (p : Phase) (start tick valid : Bool) (data : Byte) : Instr :=
  match p with
  | .idle => if start then .start else .hold
  | .scan => if tick then .scanT else if valid then .scanB data else .scanW
  | .body => if tick then .bodyT else if valid then .bodyB data else .bodyW
  | .norm => .norm
  | .rslv => .rslv
  | .csum => .csum
  | .sigc => .sigc
  | .rsvd7 => .rsvd7

/-- The operation of a step in state `s` (30_encoding.md R76). -/
def State.operation (s : State) (start tick : Bool) : Instr := selectOperation s.phase start tick s.valid s.data

/-- A row of the phase transition table (40_sequencing.md R104): the phase after the operation, and, where the operation
ends the read, the code it ends it with. -/
structure Target where
  phase : Phase
  ends : Option (Option ErrKind)
  deriving DecidableEq, Repr

/-- The phase transition table (40_sequencing.md R104), the conditions written out on the registers; an operation it does
not list leaves the phase unchanged.  RSVD7's row is 30_encoding.md R79. -/
def transition (s : State) (i : Instr) : Target :=
  match i with
  | .start => ⟨.scan, none⟩
  | .scanB data => if s.win1 = 0x42 ∧ data = 0x4D then ⟨.body, none⟩ else ⟨s.phase, none⟩
  | .scanT => if s.tmr + 1 ≥ s.cfg.tScan then ⟨.idle, some (some .syncTimeout)⟩ else ⟨s.phase, none⟩
  | .bodyB data =>
    let n := s.cnt.toNat + 1
    let len' := if n = 4 then 256 * (s.buf.read 2).toNat + data.toNat else s.len.toNat
    if n = 4 ∧ len' = 0 then ⟨.idle, some (some .zeroLength)⟩
    else if n ≥ 4 ∧ n = len' + 4 then ⟨.norm, none⟩
    else if n = 32 then ⟨.idle, some (some .bodyTimeout)⟩
    else ⟨s.phase, none⟩
  | .bodyT => if s.tmr + 1 ≥ s.cfg.tBody then ⟨.idle, some (some .bodyTimeout)⟩ else ⟨s.phase, none⟩
  | .norm => ⟨.rslv, none⟩
  | .rslv => ⟨.csum, none⟩
  | .csum =>
    if s.buf.sumTo (s.len.toNat + 2) = s.buf.read16 (s.len.toNat + 2) then ⟨.sigc, none⟩
    else ⟨.idle, some (some .checksumError)⟩
  | .sigc =>
    if s.buf.read 0 = 0x42 ∧ s.buf.read 1 = 0x4D then ⟨.idle, some none⟩ else ⟨.idle, some (some .signatureError)⟩
  | .rsvd7 => ⟨.idle, none⟩
  | .hold | .scanW | .bodyW | .cmdPassive | .cmdRequest | .frame _ _ => ⟨s.phase, none⟩

/-- An operation of the dispatch table: what a clock step runs (00_scope.md R17). -/
def isOperation (i : Instr) : Prop := i.format = .dispatch

/-! ### Bytes and frames -/

/-- The sum mod 65536 of the `n` bytes at offsets `a` to `a + n - 1` (43_byte_order_normalizer.md R131). -/
def Memory.sumFrom (m : Memory) (a : Nat) : Nat → Word
  | 0 => 0
  | n + 1 => m.sumFrom a n + (m.read (a + n)).setWidth 16

/-- The pair 42 4D stands in `bytes` at indices `n` and `n + 1` (41_frame_scanner.md R113). -/
def pairAt (bytes : List Byte) (n : Nat) : Prop := bytes[n]? = some 0x42 ∧ bytes[n + 1]? = some 0x4D

/-- The bytes the SCAN.B operations of a list take. -/
def scanBytes : List Instr → List Byte
  | [] => []
  | .scanB data :: is => data :: scanBytes is
  | _ :: is => scanBytes is

/-- An operation of the Frame Scanner (41_frame_scanner.md). -/
def isScanOp : Instr → Bool
  | .scanB _ | .scanT | .scanW => true
  | _ => false

/-- How many ticks of the scan budget a list of operations counts. -/
def scanTicks : List Instr → Nat
  | [] => 0
  | .scanT :: is => scanTicks is + 1
  | _ :: is => scanTicks is

/-- A frame as a well-formed sender emits it (30_encoding.md R71, R86): even length 2 to 28, `length` bytes after the length
field, the last two of them the big-endian sum of all bytes before them. -/
def senderFrame (len : Word) (body : List Byte) : Prop :=
  lenAccepted len = true ∧ lenEven len = true ∧ body.length = len.toNat ∧
    assemble (body.getD (len.toNat - 2) 0) (body.getD (len.toNat - 1) 0) =
      byteSum ((encode (.frame len body)).take (len.toNat + 2))

end Sys2Proof.Machine
end

