-- ==== Sys2Proof/Certificates/Slice0/Obligations.lean ====
section
/-! DEFINITION. Obligations.lean: the statements for the provers, from the numbered rules of spec/. -/

open Sys2Proof Sys2Proof.Machine

/-! ### The operations, one by one: what each makes of every register, and that it goes on -/

/-- R100: START, from every state. -/
def Obligations.StartBeginsReadWithCleanRegisters : Prop :=
  ∀ s : State, ∃ t : State, exec .start s = .next t ∧
    t.phase = .scan ∧ t.win0 = 0x00 ∧ t.win1 = 0x00 ∧ (∀ a, a < 32 → t.buf.read a = 0x00) ∧ t.cnt = 0 ∧ t.len = 0 ∧
    t.var = .compact ∧ t.acc = 0 ∧ t.tmr = 0 ∧
    t.out = { ready := false, busy := false, done := false, result := none } ∧ t.busy = true ∧
    s.storeEq t ∧ t.lastErr = s.lastErr ∧ t.source = s.source ∧ s.envEq t

/-- R100 (a), (b) and 10_state.md R36: what START leaves depends on the store and the environment alone, so nothing of an
earlier read can reach the next. -/
def Obligations.StartForgetsThePreviousRead : Prop :=
  ∀ s s' : State, s.storeEq s' → s'.lastErr = s.lastErr → s'.source = s.source → s.envEq s' →
    exec .start s' = exec .start s

/-- R101: HOLD. -/
def Obligations.HoldChangesNoRegister : Prop :=
  ∀ s : State,
    exec .hold s = .next { s with out := { ready := false, busy := false, done := false, result := none } }

/-- R112 and R124: the polls that find nothing. -/
def Obligations.PollsChangeNoRegister : Prop :=
  ∀ s : State,
    exec .scanW s = .next { s with out := { ready := true, busy := true, done := false, result := none } } ∧
    exec .bodyW s = .next { s with out := { ready := true, busy := true, done := false, result := none } }

/-- R110: SCAN.B, with and without a match. -/
def Obligations.ScanByteShiftsWindowAndLocksOnSignature : Prop :=
  ∀ (s : State) (data : Byte), ∃ t : State, exec (.scanB data) s = .next t ∧
    t.win0 = s.win1 ∧ t.win1 = data ∧
    (if s.win1 = 0x42 ∧ data = 0x4D then
      t.phase = .body ∧ t.cnt = 2 ∧ t.tmr = 0 ∧
        ∀ a, a < 32 → t.buf.read a = if a = 0 then 0x42 else if a = 1 then 0x4D else s.buf.read a
    else t.phase = s.phase ∧ t.cnt = s.cnt ∧ t.tmr = s.tmr ∧ t.buf = s.buf) ∧
    t.len = s.len ∧ t.var = s.var ∧ t.acc = s.acc ∧
    t.out = { ready := true, busy := true, done := false, result := none } ∧
    s.storeEq t ∧ t.lastErr = s.lastErr ∧ t.source = s.source.drop 1 ∧ s.envEq t

/-- R111: SCAN.T; R123: BODY.T.  The whole next state, below the budget and at it. -/
def Obligations.TicksCountAndSpendTheBudget : Prop :=
  ∀ s : State,
    exec .scanT s = .next
      (if s.tmr + 1 ≥ s.cfg.tScan then
        { s with
          tmr := s.tmr + 1, phase := .idle, lastErr := some .syncTimeout
          out := { ready := false, busy := true, done := true, result := some .syncTimeout } }
      else
        { s with
          tmr := s.tmr + 1, out := { ready := false, busy := true, done := false, result := none } }) ∧
    exec .bodyT s = .next
      (if s.tmr + 1 ≥ s.cfg.tBody then
        { s with
          tmr := s.tmr + 1, phase := .idle, lastErr := some .bodyTimeout
          out := { ready := false, busy := true, done := true, result := some .bodyTimeout } }
      else
        { s with
          tmr := s.tmr + 1, out := { ready := false, busy := true, done := false, result := none } })

/-- R120: BODY.B, for every count up to 31; `len'` and the sum `len' + 4` are exact numbers (R121). -/
def Obligations.BodyByteStoresLatchesAndDecides : Prop :=
  ∀ (s : State) (data : Byte), s.cnt.toNat ≤ 31 →
    ∃ t : State, exec (.bodyB data) s = .next t ∧
      ∃ n len' : Nat, n = s.cnt.toNat + 1 ∧
        len' = (if n = 4 then 256 * (s.buf.read 2).toNat + data.toNat else s.len.toNat) ∧
        (∀ a, a < 32 → t.buf.read a = if a = s.cnt.toNat then data else s.buf.read a) ∧
        t.cnt.toNat = n ∧ t.len.toNat = len' ∧
        (if n = 4 ∧ len' = 0 then
          t.phase = .idle ∧ t.lastErr = some .zeroLength ∧
            t.out = { ready := true, busy := true, done := true, result := some .zeroLength }
        else if n ≥ 4 ∧ n = len' + 4 then
          t.phase = .norm ∧ t.lastErr = s.lastErr ∧
            t.out = { ready := true, busy := true, done := false, result := none }
        else if n = 32 then
          t.phase = .idle ∧ t.lastErr = some .bodyTimeout ∧
            t.out = { ready := true, busy := true, done := true, result := some .bodyTimeout }
        else
          t.phase = s.phase ∧ t.lastErr = s.lastErr ∧
            t.out = { ready := true, busy := true, done := false, result := none }) ∧
        t.win0 = s.win0 ∧ t.win1 = s.win1 ∧ t.var = s.var ∧ t.acc = s.acc ∧ t.tmr = s.tmr ∧
        s.storeEq t ∧ t.source = s.source.drop 1 ∧ s.envEq t

/-- R130: NORM, all fifteen pairs and the two signature bytes. -/
def Obligations.NormExchangesEveryPair : Prop :=
  ∀ s : State, ∃ t : State, exec .norm s = .next t ∧
    t.buf.read 0 = s.buf.read 0 ∧ t.buf.read 1 = s.buf.read 1 ∧
    (∀ k, 1 ≤ k → k ≤ 15 →
      t.buf.read (2 * k) = s.buf.read (2 * k + 1) ∧ t.buf.read (2 * k + 1) = s.buf.read (2 * k)) ∧
    t.phase = .rslv ∧ t.win0 = s.win0 ∧ t.win1 = s.win1 ∧ t.cnt = s.cnt ∧ t.len = s.len ∧ t.var = s.var ∧
    t.acc = s.acc ∧ t.tmr = s.tmr ∧
    t.out = { ready := false, busy := true, done := false, result := none } ∧
    s.storeEq t ∧ t.lastErr = s.lastErr ∧ t.source = s.source ∧ s.envEq t

/-- R130 (g): NORM is its own inverse.  The premise is the canonical form, kept by every step
(Obligations.MemoriesStayCanonical). -/
def Obligations.NormTwiceRestoresTheBuffer : Prop :=
  ∀ s : State, s.buf.wf = true → ∃ t u : State, exec .norm s = .next t ∧ exec .norm t = .next u ∧ u.buf = s.buf

/-- R135: RSLV reads the normalized length field, low byte at offset 2. -/
def Obligations.RslvClassifiesByTheLengthField : Prop :=
  ∀ s : State, ∃ t : State, exec .rslv s = .next t ∧
    t.var = (if (s.buf.read 2).toNat + 256 * (s.buf.read 3).toNat = 28 then .extended else .compact) ∧
    t.phase = .csum ∧ t.win0 = s.win0 ∧ t.win1 = s.win1 ∧ t.buf = s.buf ∧ t.cnt = s.cnt ∧ t.len = s.len ∧
    t.acc = s.acc ∧ t.tmr = s.tmr ∧
    t.out = { ready := false, busy := true, done := false, result := none } ∧
    s.storeEq t ∧ t.lastErr = s.lastErr ∧ t.source = s.source ∧ s.envEq t

/-- R140, R141, R142: CSUM for every length up to 28, with the exact sum as a natural number and its bound. -/
def Obligations.CsumComparesExactSumWithReceived : Prop :=
  ∀ s : State, s.len.toNat ≤ 28 →
    ∃ t : State, exec .csum s = .next t ∧
      ∃ sum rx : Nat,
        sum = ((List.range (s.len.toNat + 2)).map fun i => (s.buf.read i).toNat).sum ∧ sum ≤ 7650 ∧
        rx = (s.buf.read (s.len.toNat + 2)).toNat + 256 * (s.buf.read (s.len.toNat + 3)).toNat ∧
        t.acc.toNat = sum ∧
        (if sum = rx then
          t.phase = .sigc ∧ t.lastErr = s.lastErr ∧
            t.out = { ready := false, busy := true, done := false, result := none }
        else
          t.phase = .idle ∧ t.lastErr = some .checksumError ∧
            t.out = { ready := false, busy := true, done := true, result := some .checksumError }) ∧
        t.win0 = s.win0 ∧ t.win1 = s.win1 ∧ t.buf = s.buf ∧ t.cnt = s.cnt ∧ t.len = s.len ∧ t.var = s.var ∧
        t.tmr = s.tmr ∧ s.storeEq t ∧ t.source = s.source ∧ s.envEq t

/-- R145 with R151: SIGC commits or fails, from every state. -/
def Obligations.SigcCommitsOrFails : Prop :=
  ∀ s : State,
    exec .sigc s = .next
      (if s.buf.read 0 = 0x42 ∧ s.buf.read 1 = 0x4D then
        { s with
          phase := .idle, stFrame := s.buf, stVar := s.var, stValid := true, lastErr := none
          out := { ready := false, busy := true, done := true, result := none } }
      else
        { s with
          phase := .idle, lastErr := some .signatureError
          out := { ready := false, busy := true, done := true, result := some .signatureError } })

/-- R79: the reserved row goes to IDLE and writes nothing else. -/
def Obligations.ReservedPhaseReturnsToIdle : Prop :=
  ∀ s : State, exec .rsvd7 s = .next
    { s with phase := .idle, out := { ready := false, busy := true, done := false, result := none } }

/-- R82: the seven bytes of each command, whose last two are the sum of the first five; sending one leaves every register
of the block as it is (the model's reading of "sent to sensor": log 9). -/
def Obligations.CommandsGoOutAndLeaveTheBlockAlone : Prop :=
  (∀ s : State,
    exec .cmdPassive s =
      .next { s with outbound := s.outbound ++ [0x42, 0x4D, 0xE1, 0x00, 0x00, 0x01, 0x70] } ∧
    exec .cmdRequest s =
      .next { s with outbound := s.outbound ++ [0x42, 0x4D, 0xE2, 0x00, 0x00, 0x01, 0x71] }) ∧
  byteSum (passiveBytes.take 5) = assemble 0x01 0x70 ∧ byteSum (requestBytes.take 5) = assemble 0x01 0x71

/-- R71, R86 and 00_scope.md R11: a frame's bytes, in arrival order, join the Byte Source behind those already waiting; no
register of the block changes (log 8). -/
def Obligations.FrameBytesJoinTheByteSource : Prop :=
  ∀ (s : State) (len : Word) (lenH lenL : Byte) (body : List Byte), len.toNat = 256 * lenH.toNat + lenL.toNat →
    exec (.frame len body) s =
      .next { s with source := s.source ++ (0x42 :: 0x4D :: lenH :: lenL :: body) }

/-- 20_memory.md R59 (log 11): which operations stop, and exactly where: BODY.B at a count above 31, CSUM at a length above
28.  No operation is refused. -/
def Obligations.OnlyOffsetsAbove31Fault : Prop :=
  (∀ (s : State) (data : Byte), 32 ≤ s.cnt.toNat → exec (.bodyB data) s = .fault (.bufferOffset s.cnt.toNat)) ∧
  (∀ s : State, 29 ≤ s.len.toNat → exec .csum s = .fault (.bufferOffset (s.len.toNat + 3))) ∧
  (∀ (i : Instr) (s : State) (f : Fault), exec i s = .fault f →
    ((∃ data, i = .bodyB data) ∧ 32 ≤ s.cnt.toNat) ∨ (i = .csum ∧ 29 ≤ s.len.toNat)) ∧
  (∀ (i : Instr) (s : State) (r : Refusal), exec i s ≠ .refused r)

/-! ### Codes, reset, encodings -/

/-- R84, R85, and the phase codes of R21. -/
def Obligations.CodesAreTheTables : Prop :=
  resultCode none = 0 ∧ resultCode (some .syncTimeout) = 1 ∧ resultCode (some .zeroLength) = 2 ∧
  resultCode (some .bodyTimeout) = 3 ∧ resultCode (some .checksumError) = 4 ∧ resultCode (some .signatureError) = 5 ∧
  Variant.code .compact = 0 ∧ Variant.code .extended = 1 ∧
  Phase.code .idle = 0 ∧ Phase.code .scan = 1 ∧ Phase.code .body = 2 ∧ Phase.code .norm = 3 ∧ Phase.code .rslv = 4 ∧
  Phase.code .csum = 5 ∧ Phase.code .sigc = 6

/-- R40: every register of R20 after reset. -/
def Obligations.ResetStateHoldsZero : Prop :=
  State.reset.phase = .idle ∧ State.reset.win0 = 0x00 ∧ State.reset.win1 = 0x00 ∧
  (∀ a, a < 32 → State.reset.buf.read a = 0x00) ∧ State.reset.cnt = 0 ∧ State.reset.len = 0 ∧
  Variant.code State.reset.var = 0 ∧ State.reset.acc = 0 ∧ State.reset.tmr = 0 ∧
  (∀ a, a < 32 → State.reset.stFrame.read a = 0x00) ∧ Variant.code State.reset.stVar = 0 ∧
  State.reset.stValid = false ∧ resultCode State.reset.lastErr = 0

/-- R190, R192: a step with `rst = 1`, whatever the phase and the other strobes. -/
def Obligations.ResetStepClearsEveryRegister : Prop :=
  ∀ (s : State) (start tick : Bool) (es : List Event), s.events = .clock true start tick :: es →
    ∃ t : State, step s = .next t ∧
      t.phase = .idle ∧ t.win0 = 0x00 ∧ t.win1 = 0x00 ∧ (∀ a, a < 32 → t.buf.read a = 0x00) ∧ t.cnt = 0 ∧
      t.len = 0 ∧ t.var = .compact ∧ t.acc = 0 ∧ t.tmr = 0 ∧ (∀ a, a < 32 → t.stFrame.read a = 0x00) ∧
      t.stVar = .compact ∧ t.stValid = false ∧ t.lastErr = none ∧
      t.out = { ready := false, busy := s.busy, done := false, result := none } ∧
      t.source = s.source ∧ t.events = es ∧ t.cfg = s.cfg ∧ t.outbound = s.outbound ∧ t.fresh = s.fresh

/-- R77: every 6-bit value is in exactly one row of the table. -/
def Obligations.EveryDispatchWordIsInOneRow : Prop :=
  ∀ d : DispatchWord, (dispatchTable.filter fun r => r.covers d).length = 1

/-- R77, R82, R71: words of every format, written from the tables. -/
def Obligations.WordsOfTheTablesDecode : Prop :=
  decodeTableWord 8 0b000101 = some .start ∧ decodeTableWord 8 0b000010 = some .hold ∧
  decodeTableWord 8 0b001110 = some .scanT ∧ decodeTableWord 8 0b001101 = some (.scanB 0x00) ∧
  decodeTableWord 8 0b010100 = some .bodyW ∧ decodeTableWord 8 0b011011 = some .norm ∧
  decodeTableWord 8 0b100000 = some .rslv ∧ decodeTableWord 8 0b101111 = some .csum ∧
  decodeTableWord 56 0x424DE200000171 = some .cmdRequest ∧
  decode .wire [0x42, 0x4D, 0x00, 0x02, 0x00, 0x91, 0x07] = .ok (.frame 2 [0x00, 0x91], [0x07])

/-- R70, R71, R77, R82: the decoder reads back every well-formed instruction, every operand at every value, whatever
follows it. -/
def Obligations.DecodeOfEncodeIsTheInstruction : Prop :=
  ∀ (i : Instr) (rest : List Byte), i.wf = true → decode i.format (encode i ++ rest) = .ok (i, rest)

/-- The other direction: what the decoder accepts is well formed and of that format; the bytes of a command or a frame are
the instruction's and no other; a dispatch byte agrees with the instruction's on the six bits of some row that covers
both. -/
def Obligations.DecodeAcceptsOnlyEncodings : Prop :=
  ∀ (f : Format) (bytes rest : List Byte) (i : Instr), decode f bytes = .ok (i, rest) →
    i.wf = true ∧ i.format = f ∧ (f ≠ .dispatch → bytes = encode i ++ rest) ∧
    (f = .dispatch → ∃ d data d' data', bytes = d :: data :: rest ∧ encode i = [d', data'] ∧
      ∃ r ∈ dispatchTable, r.covers (d.extractLsb' 0 6) = true ∧ r.covers (d'.extractLsb' 0 6) = true ∧
        d.extractLsb' 6 2 = 0 ∧ i = r.instr data)

/-! ### What a step does -/

/-- R76: in every step with `rst = 0` the operation is selected from the phase and the strobes by priority, and the step
is that operation; a step with `rst = 1` is the reset, whatever the strobes. -/
def Obligations.ClockStepRunsTheSelectedOperation : Prop :=
  ∀ (s : State) (rst start tick : Bool) (es : List Event), s.events = .clock rst start tick :: es →
    step s =
      if rst then .next { s with events := es }.resetStep
      else exec (selectOperation s.phase start tick s.valid s.data) { s with events := es }

/-- A step is `exec` of the instruction the bytes in front of it decode to: the dispatch byte and operand byte of a clock
step, the bytes on the inbound line, the bytes on the outbound line.  Around `exec` a step uses up the event. -/
def Obligations.StepRunsTheDecodedInstruction : Prop :=
  ∀ (s : State) (i : Instr) (es : List Event),
    (∀ start tick rest, s.events = .clock false start tick :: es →
      decode .dispatch (s.fetchBytes start tick) = .ok (i, rest) → step s = exec i { s with events := es }) ∧
    (∀ bytes, s.events = .inbound bytes :: es → decode .wire bytes = .ok (i, []) →
      step s = exec i { s with events := es }) ∧
    (∀ bytes, s.events = .outbound bytes :: es → decode .command bytes = .ok (i, []) →
      step s = exec i { s with events := es })

/-- R81: any bytes may come in; they join the Byte Source and nothing else changes. -/
def Obligations.AnyInboundBytesAreLegal : Prop :=
  ∀ (s : State) (bytes : List Byte) (es : List Event), s.events = .inbound bytes :: es →
    step s = .next { s with events := es, source := s.source ++ bytes }

/-- R78: the ignored inputs, one clause each: `start` outside IDLE; `tick` outside the wait phases; the byte on offer
outside the wait phases; the byte on offer beside a tick; `tick` and `valid` beside `start` in IDLE. -/
def Obligations.IgnoredInputsChangeNothing : Prop :=
  ∀ (s : State) (start tick : Bool) (es : List Event),
    (s.phase ≠ .idle →
      step { s with events := .clock false true tick :: es } = step { s with events := .clock false false tick :: es }) ∧
    (s.phase.isWait = false →
      step { s with events := .clock false start true :: es } =
        step { s with events := .clock false start false :: es }) ∧
    (s.phase.isWait = false → ∀ (source : List Byte) (t : State),
      step { s with events := .clock false start tick :: es } = .next t →
        t.source = s.source ∧
        step { s with source := source, events := .clock false start tick :: es } = .next { t with source := source }) ∧
    (s.phase.isWait = true → ∃ t : State,
      step { s with events := .clock false start true :: es } = .next t ∧ t.source = s.source) ∧
    (s.phase = .idle →
      step { s with events := .clock false true tick :: es } = exec .start { s with events := es })

/-- R10: the outputs of a clock step, from the state at its start; and which byte it takes. -/
def Obligations.OutputsFollowThePhase : Prop :=
  ∀ (s t : State) (rst start tick : Bool), s.nextEvent = .clock rst start tick → step s = .next t →
    (t.out.ready = true ↔ (s.phase = .scan ∨ s.phase = .body) ∧ tick = false ∧ rst = false) ∧
    (t.out.busy = true ↔ s.phase ≠ .idle) ∧ t.out.ready = s.ready rst tick ∧ t.out.busy = s.busy ∧
    (t.out.done = true ↔ rst = false ∧ s.phase ≠ .idle ∧ s.phase ≠ .rsvd7 ∧ t.phase = .idle) ∧
    (t.out.done = true → t.out.result = t.lastErr) ∧ (t.out.done = false → t.out.result = none) ∧
    t.source = if s.valid = true ∧ t.out.ready = true then s.source.tail else s.source

/-- R104: the phase transition table, every row, and the code each ending row ends the read with. -/
def Obligations.PhasesFollowTheTransitionTable : Prop :=
  (∀ (i : Instr) (s t : State), isOperation i → exec i s = .next t →
    t.phase = (transition s i).phase ∧
    (t.out.done = true ↔ (transition s i).ends.isSome = true) ∧
    ∀ code, (transition s i).ends = some code → t.lastErr = code ∧ t.out.result = code) ∧
  (∀ (s : State) (start tick : Bool) (es : List Event), s.events = .clock true start tick :: es →
    ∃ t : State, step s = .next t ∧ t.phase = .idle)

/-- R22: a step leaves the phase, moves it to the next one in the order, or returns it to IDLE. -/
def Obligations.PhasesNeverSkip : Prop :=
  ∀ s t : State, step s = .next t →
    t.phase = s.phase ∨ t.phase = .idle ∨ (Phase.code t.phase).toNat = (Phase.code s.phase).toNat + 1

/-- R34, the "writes" column: a register an operation is not listed for is the same after it; and what the rows of formats
Q and W leave. -/
def Obligations.InstructionsWriteOnlyTheirRegisters : Prop :=
  ∀ (i : Instr) (s t : State), exec i s = .next t →
    (i ≠ .start → (∀ data, i ≠ .scanB data) → t.win0 = s.win0 ∧ t.win1 = s.win1) ∧
    (i ≠ .start → (∀ data, i ≠ .scanB data) → (∀ data, i ≠ .bodyB data) → i ≠ .norm → t.buf = s.buf) ∧
    (i ≠ .start → (∀ data, i ≠ .scanB data) → (∀ data, i ≠ .bodyB data) → t.cnt = s.cnt) ∧
    (i ≠ .start → (∀ data, i ≠ .bodyB data) → t.len = s.len) ∧
    (i ≠ .start → i ≠ .rslv → t.var = s.var) ∧
    (i ≠ .start → i ≠ .csum → t.acc = s.acc) ∧
    (i ≠ .start → (∀ data, i ≠ .scanB data) → i ≠ .scanT → i ≠ .bodyT → t.tmr = s.tmr) ∧
    (i ≠ .sigc → s.storeEq t) ∧
    (i ≠ .scanT → (∀ data, i ≠ .bodyB data) → i ≠ .bodyT → i ≠ .csum → i ≠ .sigc → t.lastErr = s.lastErr) ∧
    (i = .hold ∨ i = .scanW ∨ i = .bodyW ∨ ¬ isOperation i → t.phase = s.phase) ∧
    ((∀ data, i ≠ .scanB data) → (∀ data, i ≠ .bodyB data) → (∀ len body, i ≠ .frame len body) →
      t.source = s.source) ∧
    (i ≠ .cmdPassive → i ≠ .cmdRequest → t.outbound = s.outbound) ∧
    (¬ isOperation i → t.out = s.out) ∧
    t.cfg = s.cfg ∧ t.events = s.events ∧ t.fresh = s.fresh

/-- R152, R153: every operation that ends a read with an error records that kind, returns to IDLE, and leaves the stored
frame, its variant and its valid bit. -/
def Obligations.FailedReadsKeepTheStoredFrame : Prop :=
  ∀ (i : Instr) (s t : State) (k : ErrKind), isOperation i → exec i s = .next t → t.out.done = true →
    t.out.result = some k → t.lastErr = some k ∧ t.phase = .idle ∧ s.storeEq t

/-- 10_state.md R35: the error flag, set by a read that ends with an error, cleared by one that ends without, and as it was
in every other operation. -/
def Obligations.ErrorFlagTellsHowTheLastReadEnded : Prop :=
  ∀ (i : Instr) (s t : State), isOperation i → exec i s = .next t →
    (t.out.done = true → (t.errorFlag = true ↔ t.out.result ≠ none)) ∧
    (t.out.done = false → t.errorFlag = s.errorFlag)

/-- R30, R31, R151, R154: the store changes only in the SIGC step that commits, all of it at once, to the buffer and its
variant; and the frame port shows a change only in a step with `done = 1`. -/
def Obligations.StoreChangesOnlyByCommit : Prop :=
  ∀ s t : State, step s = .next t → (∀ start tick, s.nextEvent ≠ .clock true start tick) →
    (¬ s.storeEq t →
      s.phase = .sigc ∧ t.out = { ready := false, busy := true, done := true, result := none } ∧
        t.stFrame = s.buf ∧ t.stVar = s.var ∧ t.stValid = true ∧ t.lastErr = none) ∧
    (t.framePort ≠ s.framePort → t.out.done = true)

/-- R32: the valid bit, once set, is cleared by reset alone. -/
def Obligations.ValidBitIsClearedOnlyByReset : Prop :=
  ∀ s t : State, s.stValid = true → step s = .next t → t.stValid = false →
    ∃ start tick, s.nextEvent = .clock true start tick

/-- R33: `last_err` is written only in the step in which a read ends, with that read's code; reset apart. -/
def Obligations.LastErrorIsWrittenOnlyWhenAReadEnds : Prop :=
  ∀ s t : State, step s = .next t → (∀ start tick, s.nextEvent ≠ .clock true start tick) → t.lastErr ≠ s.lastErr →
    s.phase ≠ .idle ∧ t.phase = .idle ∧ t.out.done = true ∧ t.lastErr = t.out.result

/-- R51, R61: the stream is first in, first out: a step takes nothing, or the head in a wait phase, or appends what comes
in. -/
def Obligations.ByteSourceIsFirstInFirstOut : Prop :=
  ∀ s t : State, step s = .next t →
    t.source = s.source ∨
    (∃ data, s.source = data :: t.source ∧ (s.phase = .scan ∨ s.phase = .body) ∧
      ∃ start, s.nextEvent = .clock false start false) ∨
    (∃ bytes, s.nextEvent = .inbound bytes ∧ t.source = s.source ++ bytes)

/-- R197: no step changes the configuration. -/
def Obligations.ConfigurationNeverChanges : Prop :=
  ∀ s t : State, step s = .next t → t.cfg = s.cfg

/-! ### The invariant -/

/-- Every step keeps both register arrays in their canonical form, from every state that has it (log 6). -/
def Obligations.MemoriesStayCanonical : Prop :=
  ∀ s t : State, s.memoriesCanonical → step s = .next t → t.memoriesCanonical

/-- R39 and what it rests on: every step keeps it, from every state that meets it. -/
def Obligations.EveryStepKeepsTheInvariant : Prop :=
  ∀ s t : State, Invariant s → step s = .next t → Invariant t

/-- The invariant holds just after reset, in every environment and with every legal pair of budgets; State.reset is one such
state. -/
def Obligations.TheInvariantHoldsAfterReset : Prop :=
  State.reset.isInitial ∧ ∀ s : State, s.isInitial → Invariant s

/-- R39 (a) to (g), in every state reachable from reset. -/
def Obligations.ReachableStatesSatisfyR39 : Prop :=
  ∀ s : State, Reachable s → ReachableFacts s

/-- R59, R79: from a state of the invariant a clock step always goes on, whatever the strobes and the bytes on offer, and
never presents the reserved phase. -/
def Obligations.ClockStepsGoOnUnderTheInvariant : Prop :=
  ∀ (s : State) (rst start tick : Bool), Invariant s → s.nextEvent = .clock rst start tick →
    goesOn (step s) ∧ s.operation start tick ≠ .rsvd7

/-- R145 (a), R202: under the invariant SIGC never fails, and a read that ends without error has stored a frame that begins
with 42 4D, declares a length 1 to 28 and carries a matching checksum. -/
def Obligations.CommittedFramesAreValid : Prop :=
  ∀ (s t : State) (rst start tick : Bool), Invariant s → s.nextEvent = .clock rst start tick → step s = .next t →
    t.out.result ≠ some .signatureError ∧
    (t.out.done = true → t.out.result = none →
      t.stValid = true ∧ t.stFrame.read 0 = 0x42 ∧ t.stFrame.read 1 = 0x4D ∧
        1 ≤ (t.stFrame.read16 2).toNat ∧ (t.stFrame.read16 2).toNat ≤ 28 ∧
        t.stFrame.sumTo ((t.stFrame.read16 2).toNat + 2) = t.stFrame.read16 ((t.stFrame.read16 2).toNat + 2))

/-! ### Byte order and the checksum -/

/-- R54, R55: 16-bit reads of the normalized buffer, at even offsets the big-endian value of the wire, at odd ones the two
bytes that the swap has brought there. -/
def Obligations.NormalizedFieldsAreTheWireValues : Prop :=
  ∀ s : State, ∃ t : State, exec .norm s = .next t ∧
    (∀ a, 2 ≤ a → a ≤ 30 → a % 2 = 0 →
      (t.buf.read16 a).toNat = 256 * (s.buf.read a).toNat + (s.buf.read (a + 1)).toNat) ∧
    (∀ a, 3 ≤ a → a ≤ 29 → a % 2 = 1 →
      (t.buf.read16 a).toNat = (s.buf.read (a - 1)).toNat + 256 * (s.buf.read (a + 2)).toNat)

/-- R131: the sum of a range from an even offset `2j` to an odd offset `2k + 1` is the same before and after NORM. -/
def Obligations.SumsOfWholePairsSurviveNorm : Prop :=
  ∀ s : State, ∃ t : State, exec .norm s = .next t ∧
    ∀ j k, j ≤ k → k ≤ 15 → t.buf.sumFrom (2 * j) (2 * (k - j) + 2) = s.buf.sumFrom (2 * j) (2 * (k - j) + 2)

/-- R132: zeros beyond an even frame stay zeros. -/
def Obligations.NormKeepsTheZerosBeyondAnEvenFrame : Prop :=
  ∀ s : State, lenEven s.len = true → (∀ a, s.len.toNat + 4 ≤ a → a < 32 → s.buf.read a = 0x00) →
    ∃ t : State, exec .norm s = .next t ∧ ∀ a, s.len.toNat + 4 ≤ a → a < 32 → t.buf.read a = 0x00

/-- R144: for an even length, a wire frame whose checksum passes no longer passes when one payload or checksum byte is any
other value. -/
def Obligations.SingleByteChangesAreDetected : Prop :=
  ∀ (s t : State) (a : Nat) (v : Byte), lenEven s.len = true → 2 ≤ s.len.toNat → s.len.toNat ≤ 28 →
    4 ≤ a → a ≤ s.len.toNat + 3 → v ≠ s.buf.read a →
    runOps [.norm, .rslv, .csum] s = .next t → t.phase = .sigc →
    ∃ u : State, runOps [.norm, .rslv, .csum] { s with buf := s.buf.write a v } = .next u ∧
      u.phase = .idle ∧ u.lastErr = some .checksumError ∧ u.out.done = true ∧ s.storeEq u

/-- R143: the checksum of an odd length in terms of the bytes as they arrived: the last one is not looked at. -/
def Obligations.OddLengthsSumAcrossThePairs : Prop :=
  ∀ s : State, s.len.toNat % 2 = 1 → s.len.toNat ≤ 27 → s.buf.read (s.len.toNat + 4) = 0x00 →
    ∃ t : State, runOps [.norm, .rslv, .csum] s = .next t ∧
      t.acc = s.buf.sumTo (s.len.toNat + 1) + (s.buf.read (s.len.toNat + 2)).setWidth 16 ∧
      (t.phase = .sigc ↔
        s.buf.sumTo (s.len.toNat + 1) + (s.buf.read (s.len.toNat + 2)).setWidth 16 =
          (s.buf.read (s.len.toNat + 1)).setWidth 16)

/-! ### The read ports -/

/-- R155: the field port, at every index. -/
def Obligations.FieldPortReadsTheStoredFrame : Prop :=
  ∀ (s : State) (k : Nat), s.fldOk = s.stValid ∧
    (1 ≤ k → k ≤ 15 → s.stValid = true →
      ∃ v, s.fld k = some v ∧ v.toNat = (s.stFrame.read (2 * k)).toNat + 256 * (s.stFrame.read (2 * k + 1)).toNat) ∧
    (s.stValid = false → s.fld k = none) ∧ (k = 0 ∨ 16 ≤ k → s.fld k = none)

/-- R155: under the invariant, field 1 of a stored frame is its declared length `L`, and for even `L` field `L/2 + 1` is its
checksum and every later field is zero. -/
def Obligations.StoredFieldsAreLengthChecksumAndZeros : Prop :=
  ∀ (s : State) (L : Word), Invariant s → s.stValid = true → L = s.stFrame.read16 2 →
    s.fld 1 = some L ∧
    (lenEven L = true →
      s.fld (L.toNat / 2 + 1) = some (s.stFrame.sumTo (L.toNat + 2)) ∧
      ∀ k, L.toNat / 2 + 1 < k → k ≤ 15 → s.fld k = some 0)

/-! ### Whole stages, and a whole read -/

/-- R113: after START, while the budget lasts, the scanner has matched after the bytes it has taken exactly when the last of
them and the one before it are 42 4D, there being no earlier such pair; until then it is still scanning.  Ticks and polls
may lie between the bytes. -/
def Obligations.ScannerStopsAtTheFirstSignature : Prop :=
  ∀ (s : State) (ops : List Instr), (∀ i ∈ ops, isScanOp i = true) → scanTicks ops < s.cfg.tScan →
    (∀ n, n + 2 < (scanBytes ops).length → ¬ pairAt (scanBytes ops) n) →
    ∃ t : State, runOps (.start :: ops) s = .next t ∧
      (t.phase = .body ↔ ∃ n, n + 2 = (scanBytes ops).length ∧ pairAt (scanBytes ops) n) ∧
      (t.phase = .body ∨ t.phase = .scan)

/-- R111, R114: in a read whose bytes never form a signature, the scanner goes on while fewer than `T_SCAN` ticks have come,
whatever bytes and polls lie between them, and fails with SyncTimeout at the `T_SCAN`-th, keeping the stored frame. -/
def Obligations.ScannerTimesOutAtTheBudgetTick : Prop :=
  ∀ (s : State) (ops : List Instr), (∀ i ∈ ops, isScanOp i = true) → (∀ n, ¬ pairAt (scanBytes ops) n) →
    scanTicks ops < s.cfg.tScan →
    ∃ t : State, runOps (.start :: ops) s = .next t ∧ t.phase = .scan ∧ t.tmr = scanTicks ops ∧
      t.lastErr = s.lastErr ∧
      (scanTicks ops + 1 = s.cfg.tScan →
        ∃ u : State, runOps (.start :: (ops ++ [.scanT])) s = .next u ∧ u.phase = .idle ∧
          u.out = { ready := false, busy := true, done := true, result := some .syncTimeout } ∧
          u.lastErr = some .syncTimeout ∧ s.storeEq u)

/-- R125: from the state a match leaves, what the body bytes lead to, for each class of declared length. -/
def Obligations.ReaderFollowsTheDeclaredLength : Prop :=
  ∀ (s : State) (lenH lenL : Byte) (body : List Byte), s.phase = .body → s.cnt = 2 → s.buf.read 0 = 0x42 →
    s.buf.read 1 = 0x4D → (∀ a, 2 ≤ a → a < 32 → s.buf.read a = 0x00) →
    ∃ L : Nat, L = 256 * lenH.toNat + lenL.toNat ∧
      (L = 0 → ∃ t, runOps [.bodyB lenH, .bodyB lenL] s = .next t ∧ t.phase = .idle ∧
        t.lastErr = some .zeroLength ∧ t.out.done = true) ∧
      (1 ≤ L → L ≤ 28 → body.length = L →
        ∃ t, runOps ((lenH :: lenL :: body).map .bodyB) s = .next t ∧ t.phase = .norm ∧ t.len.toNat = L ∧
          t.cnt.toNat = L + 4 ∧ t.lastErr = s.lastErr ∧
          ∀ a, a < 32 → t.buf.read a = (0x42 :: 0x4D :: lenH :: lenL :: body).getD a 0x00) ∧
      (29 ≤ L → body.length = 28 →
        ∃ t, runOps ((lenH :: lenL :: body).map .bodyB) s = .next t ∧ t.phase = .idle ∧
          t.lastErr = some .bodyTimeout ∧ t.out.done = true ∧ t.cnt.toNat = 32)

/-- The whole read (40_sequencing.md R102, 95_test_vectors.md E3 and E8): a frame as a well-formed sender emits it, at the head
of the Byte Source when the host asserts `start`, with clock steps enough and no tick among them, is stored: variant by its
length, every field as the sender put it, error cleared, and not one byte beyond the frame taken.  The number of steps is
the spec's own choice (40_sequencing.md R105, decision D14). -/
def Obligations.SenderFramesAreStored : Prop :=
  ∀ (s : State) (len : Word) (body rest : List Byte) (es : List Event), s.phase = .idle → senderFrame len body →
    s.source = encode (.frame len body) ++ rest →
    s.events = .clock false true false :: (List.replicate (len.toNat + 8) (.clock false false false) ++ es) →
    ∃ t : State, Host.Core.run core (len.toNat + 9) s = .next t ∧
      t.phase = .idle ∧ t.out = { ready := false, busy := true, done := true, result := none } ∧
      t.stValid = true ∧ t.stVar = (if len = 28 then .extended else .compact) ∧ t.lastErr = none ∧
      t.source = rest ∧ t.events = es ∧ s.envEq { t with events := s.events } ∧
      (∀ k, 1 ≤ k → k ≤ len.toNat / 2 + 1 →
        t.fld k = some (assemble ((encode (.frame len body)).getD (2 * k) 0x00)
          ((encode (.frame len body)).getD (2 * k + 1) 0x00))) ∧
      (∀ k, len.toNat / 2 + 1 < k → k ≤ 15 → t.fld k = some 0)

/-- 70_reset_and_hazards.md R196: with a tick in every step after START no byte is taken, and the read ends in SyncTimeout
after `T_SCAN` steps. -/
def Obligations.TicksAloneEndTheReadInSyncTimeout : Prop :=
  ∀ (s : State) (tick start : Bool) (es : List Event), s.phase = .idle → 1 ≤ s.cfg.tScan →
    s.events = .clock false true tick :: (List.replicate s.cfg.tScan (.clock false start true) ++ es) →
    ∃ t : State, Host.Core.run core (s.cfg.tScan + 1) s = .next t ∧
      t.phase = .idle ∧ t.out = { ready := false, busy := true, done := true, result := some .syncTimeout } ∧
      t.lastErr = some .syncTimeout ∧ t.source = s.source ∧ t.events = es ∧ s.storeEq t

/-- 40_sequencing.md R103, as a bound in ticks: a read in progress ends, by a step with `done = 1`, before more than
`T_SCAN + T_BODY` ticks and the four post stages have gone by, whatever bytes arrive and however many steps without a tick lie
between them. -/
def Obligations.EveryReadEndsWhenTicksCome : Prop :=
  ∀ (s : State) (es rest : List Event), Invariant s → s.phase ≠ .idle → s.events = es ++ rest →
    (∀ e ∈ es, letsReadGoOn e = true) → s.cfg.tScan + s.cfg.tBody + 4 ≤ tickCount es →
    ∃ (n : Nat) (t : State), 1 ≤ n ∧ n ≤ es.length ∧ Host.Core.run core n s = .next t ∧ t.phase = .idle ∧ t.out.done = true
end

