-- ==== Sys2Proof/Laws/Memory.lean ====
section
/-! SUPPORT. Laws/Memory.lean: reading after each memory operation, the canonical form (log 6), and the 16-bit values. -/

namespace Sys2Proof.Machine

open Sys2Proof

/-! ### The canonical form -/

theorem Memory.wfFrom_tabulateFrom (f : Nat → Byte) (n a : Nat) (h : a + n ≤ bufCap) (lo : Nat) (hlo : lo ≤ a) :
    Memory.wfFrom lo (Memory.tabulateFrom f n a) = true := by
  induction n generalizing a lo with
  | zero => rfl
  | succ n ih =>
    unfold Memory.tabulateFrom
    split
    · exact ih (a + 1) (by omega) lo (by omega)
    · rename_i hf
      have h0 : a < bufCap := by omega
      simp [Memory.wfFrom, hf, hlo, h0, ih (a + 1) (by omega) (a + 1) (Nat.le_refl _)]

theorem Memory.tabulate_wf (f : Nat → Byte) : (Memory.tabulate f).wf = true :=
  Memory.wfFrom_tabulateFrom f bufCap 0 (by decide) 0 (Nat.le_refl _)

theorem Memory.write_wf (m : Memory) (a : Nat) (v : Byte) : (m.write a v).wf = true := Memory.tabulate_wf _

theorem Memory.swapPairs_wf (m : Memory) : m.swapPairs.wf = true := Memory.tabulate_wf _

theorem Memory.clear_wf : Memory.clear.wf = true := rfl

/-! ### Reading -/

theorem Memory.read_tabulateFrom_below (f : Nat → Byte) (n a i : Nat) (h : i < a) :
    (Memory.tabulateFrom f n a).read i = 0x00 := by
  induction n generalizing a with
  | zero => rfl
  | succ n ih =>
    unfold Memory.tabulateFrom
    split
    · exact ih (a + 1) (by omega)
    · rw [Memory.read, if_neg (by omega)]
      exact ih (a + 1) (by omega)

theorem Memory.read_tabulateFrom (f : Nat → Byte) (n a i : Nat) (h : a ≤ i) :
    (Memory.tabulateFrom f n a).read i = if i < a + n then f i else 0x00 := by
  induction n generalizing a with
  | zero => rw [if_neg (by omega)]; rfl
  | succ n ih =>
    unfold Memory.tabulateFrom
    by_cases hi : i = a
    · subst hi
      split
      · rename_i hf
        rw [Memory.read_tabulateFrom_below _ _ _ _ (Nat.lt_succ_self _), if_pos (by omega), hf]
        rfl
      · rw [Memory.read, if_pos rfl, if_pos (by omega)]
    · have hrest : (Memory.tabulateFrom f n (a + 1)).read i = if i < a + (n + 1) then f i else 0x00 := by
        rw [ih (a + 1) (by omega), show a + 1 + n = a + (n + 1) by omega]
      split
      · exact hrest
      · rw [Memory.read, if_neg (fun h' => hi h'.symm)]
        exact hrest

/-- Every offset that exists reads as the function says; an offset above 31 reads 0x00. -/
theorem Memory.read_tabulate (f : Nat → Byte) (i : Nat) :
    (Memory.tabulate f).read i = if i < 32 then f i else 0x00 := by
  rw [Memory.tabulate, Memory.read_tabulateFrom _ _ _ _ (Nat.zero_le _)]
  simp [bufCap]

theorem Memory.read_write (m : Memory) (a : Nat) (v : Byte) (i : Nat) (h : i < 32) :
    (m.write a v).read i = if i = a then v else m.read i := by
  rw [Memory.write, Memory.read_tabulate, if_pos h]

theorem Memory.read_write_same (m : Memory) (a : Nat) (v : Byte) (h : a < 32) : (m.write a v).read a = v := by
  rw [Memory.read_write _ _ _ _ h, if_pos rfl]

theorem Memory.read_write_other (m : Memory) (a : Nat) (v : Byte) (i : Nat) (h : i < 32) (hne : i ≠ a) :
    (m.write a v).read i = m.read i := by
  rw [Memory.read_write _ _ _ _ h, if_neg hne]

@[simp] theorem Memory.read_clear (i : Nat) : Memory.clear.read i = 0x00 := rfl

theorem Memory.read_swapPairs (m : Memory) (i : Nat) (h : i < 32) : m.swapPairs.read i = m.read (swapOffset i) := by
  rw [Memory.swapPairs, Memory.read_tabulate, if_pos h]

theorem Memory.read_above_of_wfFrom (m : Memory) (lo i : Nat) (h : Memory.wfFrom lo m = true) (hi : i < lo ∨ 32 ≤ i) :
    m.read i = 0x00 := by
  induction m generalizing lo with
  | nil => rfl
  | cons c m ih =>
    obtain ⟨a, v⟩ := c
    simp only [Memory.wfFrom, Bool.and_eq_true, decide_eq_true_eq] at h
    obtain ⟨⟨⟨hlo, hcap⟩, -⟩, hm⟩ := h
    have hne : ¬ a = i := by simp only [bufCap] at hcap; omega
    rw [Memory.read, if_neg hne]
    exact ih (a + 1) hm (by omega)

/-- A canonical memory reads 0x00 above its 32 offsets. -/
theorem Memory.read_above (m : Memory) (h : m.wf = true) (i : Nat) (hi : 32 ≤ i) : m.read i = 0x00 :=
  Memory.read_above_of_wfFrom m 0 i h (Or.inr hi)

theorem Memory.ext_of_wfFrom (m m' : Memory) (lo lo' : Nat) (h : Memory.wfFrom lo m = true)
    (h' : Memory.wfFrom lo' m' = true) (heq : ∀ i, m.read i = m'.read i) : m = m' := by
  induction m generalizing m' lo lo' with
  | nil =>
    cases m' with
    | nil => rfl
    | cons c m' =>
      obtain ⟨a, v⟩ := c
      have hv := heq a
      simp only [Memory.wfFrom, Bool.and_eq_true, bne_iff_ne] at h'
      simp only [Memory.read] at hv
      exact absurd hv.symm h'.1.2
  | cons c m ih =>
    obtain ⟨a, v⟩ := c
    have hw := h
    simp only [Memory.wfFrom, Bool.and_eq_true, bne_iff_ne, decide_eq_true_eq] at h
    cases m' with
    | nil =>
      have hv := heq a
      simp only [Memory.read] at hv
      exact absurd hv h.1.2
    | cons c' m' =>
      obtain ⟨a', v'⟩ := c'
      have hw' := h'
      simp only [Memory.wfFrom, Bool.and_eq_true, bne_iff_ne, decide_eq_true_eq] at h'
      have haa : a = a' := by
        rcases Nat.lt_trichotomy a a' with hlt | heqa | hgt
        · have hv := heq a
          have htail := Memory.read_above_of_wfFrom m' (a' + 1) a h'.2 (Or.inl (by omega))
          simp only [Memory.read, if_true, if_neg (show ¬ a' = a by omega)] at hv
          rw [htail] at hv
          exact absurd hv h.1.2
        · exact heqa
        · have hv := heq a'
          have htail := Memory.read_above_of_wfFrom m (a + 1) a' h.2 (Or.inl (by omega))
          simp only [Memory.read, if_true, if_neg (show ¬ a = a' by omega)] at hv
          rw [htail] at hv
          exact absurd hv.symm h'.1.2
      subst haa
      have hvv : v = v' := by simpa [Memory.read] using heq a
      subst hvv
      have hrest : m = m' := by
        refine ih m' (a + 1) (a + 1) h.2 h'.2 fun i => ?_
        by_cases hi : a = i
        · subst hi
          rw [Memory.read_above_of_wfFrom m (a + 1) a h.2 (Or.inl (by omega)),
            Memory.read_above_of_wfFrom m' (a + 1) a h'.2 (Or.inl (by omega))]
        · simpa [Memory.read, hi] using heq i
      rw [hrest]

/-- Two canonical memories whose 32 bytes agree are the same data. -/
theorem Memory.ext_of_wf (m m' : Memory) (h : m.wf = true) (h' : m'.wf = true)
    (heq : ∀ i, i < 32 → m.read i = m'.read i) : m = m' := by
  refine Memory.ext_of_wfFrom m m' 0 0 h h' fun i => ?_
  by_cases hi : i < 32
  · exact heq i hi
  · rw [m.read_above h i (by omega), m'.read_above h' i (by omega)]

/-! ### The pair swap -/

theorem swapOffset_lt (i : Nat) (h : i < 32) : swapOffset i < 32 := by
  unfold swapOffset; split <;> (try split) <;> omega

theorem swapOffset_swapOffset (i : Nat) : swapOffset (swapOffset i) = i := by
  unfold swapOffset
  by_cases h2 : i < 2
  · simp [h2]
  · by_cases he : i % 2 = 0
    · have h3 : ¬ i + 1 < 2 := by omega
      have h4 : ¬ (i + 1) % 2 = 0 := by omega
      simp [h2, he, h3, h4]
    · have h3 : ¬ i - 1 < 2 := by omega
      have h4 : (i - 1) % 2 = 0 := by omega
      simp only [h2, he, h3, h4, if_true, if_false]
      omega

/-! ### 16-bit values -/

/-- `(hi << 8) | lo` is the number `256 * hi + lo`. -/
theorem assemble_toNat (hi lo : Byte) : (assemble hi lo).toNat = 256 * hi.toNat + lo.toNat := by
  have h1 := hi.isLt
  have h2 := lo.isLt
  have hor := Nat.shiftLeft_add_eq_or_of_lt (show lo.toNat < 2 ^ 8 from h2) hi.toNat
  rw [Nat.shiftLeft_eq] at hor
  simp only [assemble, BitVec.toNat_or, BitVec.toNat_shiftLeft, BitVec.toNat_setWidth, Nat.shiftLeft_eq]
  rw [Nat.mod_eq_of_lt (show hi.toNat < 2 ^ 16 by omega), Nat.mod_eq_of_lt (show lo.toNat < 2 ^ 16 by omega),
    Nat.mod_eq_of_lt (show hi.toNat * 2 ^ 8 < 2 ^ 16 by omega), ← hor]
  omega

theorem highByte_toNat (v : Word) : (highByte v).toNat = v.toNat / 256 := by
  have h := v.isLt
  simp only [highByte, BitVec.extractLsb'_toNat, Nat.shiftRight_eq_div_pow]
  omega

theorem lowByte_toNat (v : Word) : (lowByte v).toNat = v.toNat % 256 := by
  simp only [lowByte, BitVec.extractLsb'_toNat, Nat.shiftRight_zero]

/-- The two bytes of a 16-bit value assemble to it. -/
theorem assemble_highByte_lowByte (v : Word) : assemble (highByte v) (lowByte v) = v := by
  apply BitVec.eq_of_toNat_eq
  rw [assemble_toNat, highByte_toNat, lowByte_toNat]
  omega

/-- The bytes of an assembled value are the bytes it was assembled from. -/
theorem assemble_inj (hi lo hi' lo' : Byte) (h : assemble hi lo = assemble hi' lo') : hi = hi' ∧ lo = lo' := by
  have hn := congrArg BitVec.toNat h
  have h1 := hi.isLt
  have h2 := lo.isLt
  have h3 := hi'.isLt
  have h4 := lo'.isLt
  rw [assemble_toNat, assemble_toNat] at hn
  exact ⟨BitVec.eq_of_toNat_eq (by omega), BitVec.eq_of_toNat_eq (by omega)⟩

theorem highByte_assemble (hi lo : Byte) : highByte (assemble hi lo) = hi :=
  (assemble_inj _ _ _ _ (assemble_highByte_lowByte (assemble hi lo))).1

theorem lowByte_assemble (hi lo : Byte) : lowByte (assemble hi lo) = lo :=
  (assemble_inj _ _ _ _ (assemble_highByte_lowByte (assemble hi lo))).2

theorem Memory.read16_toNat (m : Memory) (a : Nat) :
    (m.read16 a).toNat = 256 * (m.read (a + 1)).toNat + (m.read a).toNat := assemble_toNat _ _

/-! ### Sums -/

theorem Memory.sumTo_congr (m m' : Memory) (n : Nat) (h : ∀ i, i < n → m.read i = m'.read i) :
    m.sumTo n = m'.sumTo n := by
  induction n with
  | zero => rfl
  | succ n ih =>
    rw [Memory.sumTo, Memory.sumTo, ih fun i hi => h i (by omega), h n (by omega)]

theorem ckOffset_eq (len : Word) : ckOffset len = len.toNat + 2 := by
  simp [ckOffset, hdr, ckW]

theorem computedSum_eq (m : Memory) (len : Word) : computedSum m len = m.sumTo (len.toNat + 2) := by
  rw [computedSum, ckOffset_eq]

theorem receivedSum_eq (m : Memory) (len : Word) : receivedSum m len = m.read16 (len.toNat + 2) := by
  rw [receivedSum, ckOffset_eq]

theorem checksumHolds_iff (m : Memory) (len : Word) :
    checksumHolds m len = true ↔ m.sumTo (len.toNat + 2) = m.read16 (len.toNat + 2) := by
  rw [checksumHolds, beq_iff_eq, computedSum_eq, receivedSum_eq]

end Sys2Proof.Machine
end

