-- ==== Sys2Proof/Laws/Decode.lean ====
section
/-! SUPPORT. Laws/Decode.lean: the dispatch words decode to the operation of 30_encoding.md R76, and what a successful
decoding of the other formats says of the bytes. -/

namespace Sys2Proof.Machine

open Sys2Proof

/-- The table and the priorities select the same operation (30_encoding.md R76, R77). -/
theorem decodeD_dispatchWord (p : Phase) (start tick valid : Bool) (data : Byte) :
    decodeD [(dispatchWord p start tick valid).setWidth 8, data] =
      .ok (selectOperation p start tick valid data, []) := by
  cases p <;> cases start <;> cases tick <;> cases valid <;> rfl

/-- What a clock step presents decodes, to the operation of 30_encoding.md R76. -/
theorem decode_fetchBytes (s : State) (start tick : Bool) :
    decode .dispatch (s.fetchBytes start tick) = .ok (s.operation start tick, []) :=
  decodeD_dispatchWord _ _ _ _ _

/-- A decoded frame's bytes are its encoding, and what follows it is what was left. -/
theorem decodeW_ok (bytes rest : List Byte) (i : Instr) (h : decodeW bytes = .ok (i, rest)) :
    ∃ len body, i = .frame len body ∧ body.length = len.toNat ∧ bytes = encode i ++ rest := by
  match bytes with
  | [] | [_] | [_, _] | [_, _, _] => simp [decodeW] at h
  | s0 :: s1 :: lenH :: lenL :: tail =>
    simp only [decodeW] at h
    split at h
    · rename_i hsig
      split at h
      · simp at h
      · rename_i hlen
        simp only [Except.ok.injEq, Prod.mk.injEq] at h
        obtain ⟨rfl, rfl⟩ := h
        refine ⟨_, _, rfl, ?_, ?_⟩
        · rw [List.length_take]; omega
        · simp [encode, hsig.1, hsig.2, highByte_assemble, lowByte_assemble]
    · simp at h

/-- A decoded command's bytes are its encoding, and what follows it is what was left. -/
theorem decodeQ_ok (bytes rest : List Byte) (i : Instr) (h : decodeQ bytes = .ok (i, rest)) :
    (i = .cmdPassive ∨ i = .cmdRequest) ∧ bytes = encode i ++ rest := by
  unfold decodeQ at h
  split at h
  · rename_i hb
    simp only [Except.ok.injEq, Prod.mk.injEq] at h
    obtain ⟨rfl, rfl⟩ := h
    exact ⟨.inl rfl, by rw [encode, ← hb, List.take_append_drop]⟩
  · split at h
    · rename_i hb
      simp only [Except.ok.injEq, Prod.mk.injEq] at h
      obtain ⟨rfl, rfl⟩ := h
      exact ⟨.inr rfl, by rw [encode, ← hb, List.take_append_drop]⟩
    · split at h <;> simp at h

end Sys2Proof.Machine
end

