-- ==== Sys2Proof/Laws/State.lean ====
section
/-! SUPPORT. Laws/State.lean: what each named update of State makes of each field: one lemma a field, true by rfl. -/

namespace Sys2Proof.Machine

open Sys2Proof

/-! ### `drive` -/
section
variable (s : State) (ready busy : Bool)

@[simp] theorem State.drive_phase : (s.drive ready busy).phase = s.phase := rfl
@[simp] theorem State.drive_win0 : (s.drive ready busy).win0 = s.win0 := rfl
@[simp] theorem State.drive_win1 : (s.drive ready busy).win1 = s.win1 := rfl
@[simp] theorem State.drive_buf : (s.drive ready busy).buf = s.buf := rfl
@[simp] theorem State.drive_cnt : (s.drive ready busy).cnt = s.cnt := rfl
@[simp] theorem State.drive_len : (s.drive ready busy).len = s.len := rfl
@[simp] theorem State.drive_var : (s.drive ready busy).var = s.var := rfl
@[simp] theorem State.drive_acc : (s.drive ready busy).acc = s.acc := rfl
@[simp] theorem State.drive_tmr : (s.drive ready busy).tmr = s.tmr := rfl
@[simp] theorem State.drive_stFrame : (s.drive ready busy).stFrame = s.stFrame := rfl
@[simp] theorem State.drive_stVar : (s.drive ready busy).stVar = s.stVar := rfl
@[simp] theorem State.drive_stValid : (s.drive ready busy).stValid = s.stValid := rfl
@[simp] theorem State.drive_lastErr : (s.drive ready busy).lastErr = s.lastErr := rfl
@[simp] theorem State.drive_cfg : (s.drive ready busy).cfg = s.cfg := rfl
@[simp] theorem State.drive_source : (s.drive ready busy).source = s.source := rfl
@[simp] theorem State.drive_outbound : (s.drive ready busy).outbound = s.outbound := rfl
@[simp] theorem State.drive_events : (s.drive ready busy).events = s.events := rfl
@[simp] theorem State.drive_fresh : (s.drive ready busy).fresh = s.fresh := rfl
@[simp] theorem State.drive_out : (s.drive ready busy).out = { ready := ready, busy := busy, done := false, result := none } := rfl

end

/-! ### `takeByte` -/
section
variable (s : State)

@[simp] theorem State.takeByte_phase : (s.takeByte).phase = s.phase := rfl
@[simp] theorem State.takeByte_win0 : (s.takeByte).win0 = s.win0 := rfl
@[simp] theorem State.takeByte_win1 : (s.takeByte).win1 = s.win1 := rfl
@[simp] theorem State.takeByte_buf : (s.takeByte).buf = s.buf := rfl
@[simp] theorem State.takeByte_cnt : (s.takeByte).cnt = s.cnt := rfl
@[simp] theorem State.takeByte_len : (s.takeByte).len = s.len := rfl
@[simp] theorem State.takeByte_var : (s.takeByte).var = s.var := rfl
@[simp] theorem State.takeByte_acc : (s.takeByte).acc = s.acc := rfl
@[simp] theorem State.takeByte_tmr : (s.takeByte).tmr = s.tmr := rfl
@[simp] theorem State.takeByte_stFrame : (s.takeByte).stFrame = s.stFrame := rfl
@[simp] theorem State.takeByte_stVar : (s.takeByte).stVar = s.stVar := rfl
@[simp] theorem State.takeByte_stValid : (s.takeByte).stValid = s.stValid := rfl
@[simp] theorem State.takeByte_lastErr : (s.takeByte).lastErr = s.lastErr := rfl
@[simp] theorem State.takeByte_cfg : (s.takeByte).cfg = s.cfg := rfl
@[simp] theorem State.takeByte_source : (s.takeByte).source = s.source.drop 1 := rfl
@[simp] theorem State.takeByte_outbound : (s.takeByte).outbound = s.outbound := rfl
@[simp] theorem State.takeByte_events : (s.takeByte).events = s.events := rfl
@[simp] theorem State.takeByte_fresh : (s.takeByte).fresh = s.fresh := rfl
@[simp] theorem State.takeByte_out : (s.takeByte).out = s.out := rfl

end

/-! ### `receive` -/
section
variable (s : State) (bytes : List Byte)

@[simp] theorem State.receive_phase : (s.receive bytes).phase = s.phase := rfl
@[simp] theorem State.receive_win0 : (s.receive bytes).win0 = s.win0 := rfl
@[simp] theorem State.receive_win1 : (s.receive bytes).win1 = s.win1 := rfl
@[simp] theorem State.receive_buf : (s.receive bytes).buf = s.buf := rfl
@[simp] theorem State.receive_cnt : (s.receive bytes).cnt = s.cnt := rfl
@[simp] theorem State.receive_len : (s.receive bytes).len = s.len := rfl
@[simp] theorem State.receive_var : (s.receive bytes).var = s.var := rfl
@[simp] theorem State.receive_acc : (s.receive bytes).acc = s.acc := rfl
@[simp] theorem State.receive_tmr : (s.receive bytes).tmr = s.tmr := rfl
@[simp] theorem State.receive_stFrame : (s.receive bytes).stFrame = s.stFrame := rfl
@[simp] theorem State.receive_stVar : (s.receive bytes).stVar = s.stVar := rfl
@[simp] theorem State.receive_stValid : (s.receive bytes).stValid = s.stValid := rfl
@[simp] theorem State.receive_lastErr : (s.receive bytes).lastErr = s.lastErr := rfl
@[simp] theorem State.receive_cfg : (s.receive bytes).cfg = s.cfg := rfl
@[simp] theorem State.receive_source : (s.receive bytes).source = s.source ++ bytes := rfl
@[simp] theorem State.receive_outbound : (s.receive bytes).outbound = s.outbound := rfl
@[simp] theorem State.receive_events : (s.receive bytes).events = s.events := rfl
@[simp] theorem State.receive_fresh : (s.receive bytes).fresh = s.fresh := rfl
@[simp] theorem State.receive_out : (s.receive bytes).out = s.out := rfl

end

/-! ### `transmit` -/
section
variable (s : State) (bytes : List Byte)

@[simp] theorem State.transmit_phase : (s.transmit bytes).phase = s.phase := rfl
@[simp] theorem State.transmit_win0 : (s.transmit bytes).win0 = s.win0 := rfl
@[simp] theorem State.transmit_win1 : (s.transmit bytes).win1 = s.win1 := rfl
@[simp] theorem State.transmit_buf : (s.transmit bytes).buf = s.buf := rfl
@[simp] theorem State.transmit_cnt : (s.transmit bytes).cnt = s.cnt := rfl
@[simp] theorem State.transmit_len : (s.transmit bytes).len = s.len := rfl
@[simp] theorem State.transmit_var : (s.transmit bytes).var = s.var := rfl
@[simp] theorem State.transmit_acc : (s.transmit bytes).acc = s.acc := rfl
@[simp] theorem State.transmit_tmr : (s.transmit bytes).tmr = s.tmr := rfl
@[simp] theorem State.transmit_stFrame : (s.transmit bytes).stFrame = s.stFrame := rfl
@[simp] theorem State.transmit_stVar : (s.transmit bytes).stVar = s.stVar := rfl
@[simp] theorem State.transmit_stValid : (s.transmit bytes).stValid = s.stValid := rfl
@[simp] theorem State.transmit_lastErr : (s.transmit bytes).lastErr = s.lastErr := rfl
@[simp] theorem State.transmit_cfg : (s.transmit bytes).cfg = s.cfg := rfl
@[simp] theorem State.transmit_source : (s.transmit bytes).source = s.source := rfl
@[simp] theorem State.transmit_outbound : (s.transmit bytes).outbound = s.outbound ++ bytes := rfl
@[simp] theorem State.transmit_events : (s.transmit bytes).events = s.events := rfl
@[simp] theorem State.transmit_fresh : (s.transmit bytes).fresh = s.fresh := rfl
@[simp] theorem State.transmit_out : (s.transmit bytes).out = s.out := rfl

end

/-! ### `finish` -/
section
variable (s : State) (code : Option ErrKind)

@[simp] theorem State.finish_phase : (s.finish code).phase = .idle := rfl
@[simp] theorem State.finish_win0 : (s.finish code).win0 = s.win0 := rfl
@[simp] theorem State.finish_win1 : (s.finish code).win1 = s.win1 := rfl
@[simp] theorem State.finish_buf : (s.finish code).buf = s.buf := rfl
@[simp] theorem State.finish_cnt : (s.finish code).cnt = s.cnt := rfl
@[simp] theorem State.finish_len : (s.finish code).len = s.len := rfl
@[simp] theorem State.finish_var : (s.finish code).var = s.var := rfl
@[simp] theorem State.finish_acc : (s.finish code).acc = s.acc := rfl
@[simp] theorem State.finish_tmr : (s.finish code).tmr = s.tmr := rfl
@[simp] theorem State.finish_stFrame : (s.finish code).stFrame = s.stFrame := rfl
@[simp] theorem State.finish_stVar : (s.finish code).stVar = s.stVar := rfl
@[simp] theorem State.finish_stValid : (s.finish code).stValid = s.stValid := rfl
@[simp] theorem State.finish_lastErr : (s.finish code).lastErr = code := rfl
@[simp] theorem State.finish_cfg : (s.finish code).cfg = s.cfg := rfl
@[simp] theorem State.finish_source : (s.finish code).source = s.source := rfl
@[simp] theorem State.finish_outbound : (s.finish code).outbound = s.outbound := rfl
@[simp] theorem State.finish_events : (s.finish code).events = s.events := rfl
@[simp] theorem State.finish_fresh : (s.finish code).fresh = s.fresh := rfl
@[simp] theorem State.finish_out : (s.finish code).out = { s.out with done := true, result := code } := rfl

end

/-! ### `fail` -/
section
variable (s : State) (k : ErrKind)

@[simp] theorem State.fail_phase : (s.fail k).phase = .idle := rfl
@[simp] theorem State.fail_win0 : (s.fail k).win0 = s.win0 := rfl
@[simp] theorem State.fail_win1 : (s.fail k).win1 = s.win1 := rfl
@[simp] theorem State.fail_buf : (s.fail k).buf = s.buf := rfl
@[simp] theorem State.fail_cnt : (s.fail k).cnt = s.cnt := rfl
@[simp] theorem State.fail_len : (s.fail k).len = s.len := rfl
@[simp] theorem State.fail_var : (s.fail k).var = s.var := rfl
@[simp] theorem State.fail_acc : (s.fail k).acc = s.acc := rfl
@[simp] theorem State.fail_tmr : (s.fail k).tmr = s.tmr := rfl
@[simp] theorem State.fail_stFrame : (s.fail k).stFrame = s.stFrame := rfl
@[simp] theorem State.fail_stVar : (s.fail k).stVar = s.stVar := rfl
@[simp] theorem State.fail_stValid : (s.fail k).stValid = s.stValid := rfl
@[simp] theorem State.fail_lastErr : (s.fail k).lastErr = some k := rfl
@[simp] theorem State.fail_cfg : (s.fail k).cfg = s.cfg := rfl
@[simp] theorem State.fail_source : (s.fail k).source = s.source := rfl
@[simp] theorem State.fail_outbound : (s.fail k).outbound = s.outbound := rfl
@[simp] theorem State.fail_events : (s.fail k).events = s.events := rfl
@[simp] theorem State.fail_fresh : (s.fail k).fresh = s.fresh := rfl
@[simp] theorem State.fail_out : (s.fail k).out = { s.out with done := true, result := some k } := rfl

end

/-! ### `commit` -/
section
variable (s : State)

@[simp] theorem State.commit_phase : (s.commit).phase = .idle := rfl
@[simp] theorem State.commit_win0 : (s.commit).win0 = s.win0 := rfl
@[simp] theorem State.commit_win1 : (s.commit).win1 = s.win1 := rfl
@[simp] theorem State.commit_buf : (s.commit).buf = s.buf := rfl
@[simp] theorem State.commit_cnt : (s.commit).cnt = s.cnt := rfl
@[simp] theorem State.commit_len : (s.commit).len = s.len := rfl
@[simp] theorem State.commit_var : (s.commit).var = s.var := rfl
@[simp] theorem State.commit_acc : (s.commit).acc = s.acc := rfl
@[simp] theorem State.commit_tmr : (s.commit).tmr = s.tmr := rfl
@[simp] theorem State.commit_stFrame : (s.commit).stFrame = s.buf := rfl
@[simp] theorem State.commit_stVar : (s.commit).stVar = s.var := rfl
@[simp] theorem State.commit_stValid : (s.commit).stValid = true := rfl
@[simp] theorem State.commit_lastErr : (s.commit).lastErr = none := rfl
@[simp] theorem State.commit_cfg : (s.commit).cfg = s.cfg := rfl
@[simp] theorem State.commit_source : (s.commit).source = s.source := rfl
@[simp] theorem State.commit_outbound : (s.commit).outbound = s.outbound := rfl
@[simp] theorem State.commit_events : (s.commit).events = s.events := rfl
@[simp] theorem State.commit_fresh : (s.commit).fresh = s.fresh := rfl
@[simp] theorem State.commit_out : (s.commit).out = { s.out with done := true, result := none } := rfl

end

/-! ### `clearWorking` -/
section
variable (s : State)

@[simp] theorem State.clearWorking_phase : (s.clearWorking).phase = s.phase := rfl
@[simp] theorem State.clearWorking_win0 : (s.clearWorking).win0 = 0x00 := rfl
@[simp] theorem State.clearWorking_win1 : (s.clearWorking).win1 = 0x00 := rfl
@[simp] theorem State.clearWorking_buf : (s.clearWorking).buf = Memory.clear := rfl
@[simp] theorem State.clearWorking_cnt : (s.clearWorking).cnt = 0 := rfl
@[simp] theorem State.clearWorking_len : (s.clearWorking).len = 0 := rfl
@[simp] theorem State.clearWorking_var : (s.clearWorking).var = .compact := rfl
@[simp] theorem State.clearWorking_acc : (s.clearWorking).acc = 0 := rfl
@[simp] theorem State.clearWorking_tmr : (s.clearWorking).tmr = 0 := rfl
@[simp] theorem State.clearWorking_stFrame : (s.clearWorking).stFrame = s.stFrame := rfl
@[simp] theorem State.clearWorking_stVar : (s.clearWorking).stVar = s.stVar := rfl
@[simp] theorem State.clearWorking_stValid : (s.clearWorking).stValid = s.stValid := rfl
@[simp] theorem State.clearWorking_lastErr : (s.clearWorking).lastErr = s.lastErr := rfl
@[simp] theorem State.clearWorking_cfg : (s.clearWorking).cfg = s.cfg := rfl
@[simp] theorem State.clearWorking_source : (s.clearWorking).source = s.source := rfl
@[simp] theorem State.clearWorking_outbound : (s.clearWorking).outbound = s.outbound := rfl
@[simp] theorem State.clearWorking_events : (s.clearWorking).events = s.events := rfl
@[simp] theorem State.clearWorking_fresh : (s.clearWorking).fresh = s.fresh := rfl
@[simp] theorem State.clearWorking_out : (s.clearWorking).out = s.out := rfl

end

/-! ### `clearStore` -/
section
variable (s : State)

@[simp] theorem State.clearStore_phase : (s.clearStore).phase = s.phase := rfl
@[simp] theorem State.clearStore_win0 : (s.clearStore).win0 = s.win0 := rfl
@[simp] theorem State.clearStore_win1 : (s.clearStore).win1 = s.win1 := rfl
@[simp] theorem State.clearStore_buf : (s.clearStore).buf = s.buf := rfl
@[simp] theorem State.clearStore_cnt : (s.clearStore).cnt = s.cnt := rfl
@[simp] theorem State.clearStore_len : (s.clearStore).len = s.len := rfl
@[simp] theorem State.clearStore_var : (s.clearStore).var = s.var := rfl
@[simp] theorem State.clearStore_acc : (s.clearStore).acc = s.acc := rfl
@[simp] theorem State.clearStore_tmr : (s.clearStore).tmr = s.tmr := rfl
@[simp] theorem State.clearStore_stFrame : (s.clearStore).stFrame = Memory.clear := rfl
@[simp] theorem State.clearStore_stVar : (s.clearStore).stVar = .compact := rfl
@[simp] theorem State.clearStore_stValid : (s.clearStore).stValid = false := rfl
@[simp] theorem State.clearStore_lastErr : (s.clearStore).lastErr = none := rfl
@[simp] theorem State.clearStore_cfg : (s.clearStore).cfg = s.cfg := rfl
@[simp] theorem State.clearStore_source : (s.clearStore).source = s.source := rfl
@[simp] theorem State.clearStore_outbound : (s.clearStore).outbound = s.outbound := rfl
@[simp] theorem State.clearStore_events : (s.clearStore).events = s.events := rfl
@[simp] theorem State.clearStore_fresh : (s.clearStore).fresh = s.fresh := rfl
@[simp] theorem State.clearStore_out : (s.clearStore).out = s.out := rfl

end

/-! ### `shiftWindow` -/
section
variable (s : State) (data : Byte)

@[simp] theorem State.shiftWindow_phase : (s.shiftWindow data).phase = s.phase := rfl
@[simp] theorem State.shiftWindow_win0 : (s.shiftWindow data).win0 = s.win1 := rfl
@[simp] theorem State.shiftWindow_win1 : (s.shiftWindow data).win1 = data := rfl
@[simp] theorem State.shiftWindow_buf : (s.shiftWindow data).buf = s.buf := rfl
@[simp] theorem State.shiftWindow_cnt : (s.shiftWindow data).cnt = s.cnt := rfl
@[simp] theorem State.shiftWindow_len : (s.shiftWindow data).len = s.len := rfl
@[simp] theorem State.shiftWindow_var : (s.shiftWindow data).var = s.var := rfl
@[simp] theorem State.shiftWindow_acc : (s.shiftWindow data).acc = s.acc := rfl
@[simp] theorem State.shiftWindow_tmr : (s.shiftWindow data).tmr = s.tmr := rfl
@[simp] theorem State.shiftWindow_stFrame : (s.shiftWindow data).stFrame = s.stFrame := rfl
@[simp] theorem State.shiftWindow_stVar : (s.shiftWindow data).stVar = s.stVar := rfl
@[simp] theorem State.shiftWindow_stValid : (s.shiftWindow data).stValid = s.stValid := rfl
@[simp] theorem State.shiftWindow_lastErr : (s.shiftWindow data).lastErr = s.lastErr := rfl
@[simp] theorem State.shiftWindow_cfg : (s.shiftWindow data).cfg = s.cfg := rfl
@[simp] theorem State.shiftWindow_source : (s.shiftWindow data).source = s.source := rfl
@[simp] theorem State.shiftWindow_outbound : (s.shiftWindow data).outbound = s.outbound := rfl
@[simp] theorem State.shiftWindow_events : (s.shiftWindow data).events = s.events := rfl
@[simp] theorem State.shiftWindow_fresh : (s.shiftWindow data).fresh = s.fresh := rfl
@[simp] theorem State.shiftWindow_out : (s.shiftWindow data).out = s.out := rfl

end

/-! ### `lockFrame` -/
section
variable (s : State)

@[simp] theorem State.lockFrame_phase : (s.lockFrame).phase = .body := rfl
@[simp] theorem State.lockFrame_win0 : (s.lockFrame).win0 = s.win0 := rfl
@[simp] theorem State.lockFrame_win1 : (s.lockFrame).win1 = s.win1 := rfl
@[simp] theorem State.lockFrame_buf : (s.lockFrame).buf = (s.buf.write 0 sig0).write 1 sig1 := rfl
@[simp] theorem State.lockFrame_cnt : (s.lockFrame).cnt = 2 := rfl
@[simp] theorem State.lockFrame_len : (s.lockFrame).len = s.len := rfl
@[simp] theorem State.lockFrame_var : (s.lockFrame).var = s.var := rfl
@[simp] theorem State.lockFrame_acc : (s.lockFrame).acc = s.acc := rfl
@[simp] theorem State.lockFrame_tmr : (s.lockFrame).tmr = 0 := rfl
@[simp] theorem State.lockFrame_stFrame : (s.lockFrame).stFrame = s.stFrame := rfl
@[simp] theorem State.lockFrame_stVar : (s.lockFrame).stVar = s.stVar := rfl
@[simp] theorem State.lockFrame_stValid : (s.lockFrame).stValid = s.stValid := rfl
@[simp] theorem State.lockFrame_lastErr : (s.lockFrame).lastErr = s.lastErr := rfl
@[simp] theorem State.lockFrame_cfg : (s.lockFrame).cfg = s.cfg := rfl
@[simp] theorem State.lockFrame_source : (s.lockFrame).source = s.source := rfl
@[simp] theorem State.lockFrame_outbound : (s.lockFrame).outbound = s.outbound := rfl
@[simp] theorem State.lockFrame_events : (s.lockFrame).events = s.events := rfl
@[simp] theorem State.lockFrame_fresh : (s.lockFrame).fresh = s.fresh := rfl
@[simp] theorem State.lockFrame_out : (s.lockFrame).out = s.out := rfl

end

/-! ### `storeByte` -/
section
variable (s : State) (data : Byte)

@[simp] theorem State.storeByte_phase : (s.storeByte data).phase = s.phase := rfl
@[simp] theorem State.storeByte_win0 : (s.storeByte data).win0 = s.win0 := rfl
@[simp] theorem State.storeByte_win1 : (s.storeByte data).win1 = s.win1 := rfl
@[simp] theorem State.storeByte_buf : (s.storeByte data).buf = s.buf.write s.cnt.toNat data := rfl
@[simp] theorem State.storeByte_cnt : (s.storeByte data).cnt = BitVec.ofNat 6 (s.cnt.toNat + 1) := rfl
@[simp] theorem State.storeByte_len : (s.storeByte data).len = lengthAfter s.buf s.len (s.cnt.toNat + 1) data := rfl
@[simp] theorem State.storeByte_var : (s.storeByte data).var = s.var := rfl
@[simp] theorem State.storeByte_acc : (s.storeByte data).acc = s.acc := rfl
@[simp] theorem State.storeByte_tmr : (s.storeByte data).tmr = s.tmr := rfl
@[simp] theorem State.storeByte_stFrame : (s.storeByte data).stFrame = s.stFrame := rfl
@[simp] theorem State.storeByte_stVar : (s.storeByte data).stVar = s.stVar := rfl
@[simp] theorem State.storeByte_stValid : (s.storeByte data).stValid = s.stValid := rfl
@[simp] theorem State.storeByte_lastErr : (s.storeByte data).lastErr = s.lastErr := rfl
@[simp] theorem State.storeByte_cfg : (s.storeByte data).cfg = s.cfg := rfl
@[simp] theorem State.storeByte_source : (s.storeByte data).source = s.source := rfl
@[simp] theorem State.storeByte_outbound : (s.storeByte data).outbound = s.outbound := rfl
@[simp] theorem State.storeByte_events : (s.storeByte data).events = s.events := rfl
@[simp] theorem State.storeByte_fresh : (s.storeByte data).fresh = s.fresh := rfl
@[simp] theorem State.storeByte_out : (s.storeByte data).out = s.out := rfl

end

end Sys2Proof.Machine
end

