-- ==== Sys2Proof/Laws/Ops.lean ====
section
/-! SUPPORT. Laws/Ops.lean: for each shared operation and test, what it can do, said once. -/

namespace Sys2Proof.Machine

open Sys2Proof

/-! ### Tests -/

theorem signatureSeen_iff (w0 w1 : Byte) : signatureSeen w0 w1 = true ↔ w0 = 0x42 ∧ w1 = 0x4D := by
  simp [signatureSeen, sig0, sig1]

theorem signatureHolds_iff (m : Memory) : signatureHolds m = true ↔ m.read 0 = 0x42 ∧ m.read 1 = 0x4D := by
  simp [signatureHolds, sig0, sig1]

theorem variantOf_eq_extended_iff (len : Word) : variantOf len = .extended ↔ len = 28 := by
  unfold variantOf extLen
  split <;> simp_all

/-- How BODY.B's three tests come out (42_frame_reader.md R120): each verdict and its condition. -/
theorem bodyVerdict_cases (n : Nat) (len : Word) :
    (bodyVerdict n len = .zeroLength ∧ n = 4 ∧ len = 0) ∨
      (bodyVerdict n len = .complete ∧ ¬(n = 4 ∧ len = 0) ∧ 4 ≤ n ∧ n = len.toNat + 4) ∨
      (bodyVerdict n len = .full ∧ ¬(n = 4 ∧ len = 0) ∧ ¬(4 ≤ n ∧ n = len.toNat + 4) ∧ n = 32) ∨
      (bodyVerdict n len = .more ∧ ¬(n = 4 ∧ len = 0) ∧ ¬(4 ≤ n ∧ n = len.toNat + 4) ∧ n ≠ 32) := by
  unfold bodyVerdict hdr bufCap
  by_cases h1 : n = 4 ∧ len = 0
  · exact .inl ⟨if_pos h1, h1⟩
  · by_cases h2 : 4 ≤ n ∧ n = len.toNat + 4
    · exact .inr (.inl ⟨by rw [if_neg h1, if_pos h2], h1, h2⟩)
    · by_cases h3 : n = 32
      · exact .inr (.inr (.inl ⟨by rw [if_neg h1, if_neg h2, if_pos h3], h1, h2, h3⟩))
      · exact .inr (.inr (.inr ⟨by rw [if_neg h1, if_neg h2, if_neg h3], h1, h2, h3⟩))

/-! ### The tick counter -/

/-- A tick that leaves some of the budget (41_frame_scanner.md R111, 42_frame_reader.md R123). -/
theorem State.countTick_of_lt (s : State) (budget : Nat) (k : ErrKind) (h : s.tmr + 1 < budget) :
    s.countTick budget k = { s with tmr := s.tmr + 1 } := by
  rw [State.countTick, if_neg (by omega)]

/-- A tick that spends the budget (41_frame_scanner.md R111, 42_frame_reader.md R123). -/
theorem State.countTick_of_le (s : State) (budget : Nat) (k : ErrKind) (h : budget ≤ s.tmr + 1) :
    s.countTick budget k = ({ s with tmr := s.tmr + 1 }).fail k := by
  rw [State.countTick, if_pos h]

/-! ### Reset -/

/-- Reset leaves the environment's record alone and everything else as State.reset has it, the outputs apart
(70_reset_and_hazards.md R190). -/
theorem State.resetStep_eq (s : State) :
    s.resetStep =
      { State.reset with
        cfg := s.cfg, source := s.source, outbound := s.outbound, events := s.events, fresh := s.fresh,
        out := { ready := false, busy := s.phase != .idle, done := false, result := none } } := rfl

/-! ### Using up an event -/

section
variable (s : State)

@[simp] theorem State.dropEvent_phase : s.dropEvent.phase = s.phase := by unfold State.dropEvent; split <;> rfl
@[simp] theorem State.dropEvent_win0 : s.dropEvent.win0 = s.win0 := by unfold State.dropEvent; split <;> rfl
@[simp] theorem State.dropEvent_win1 : s.dropEvent.win1 = s.win1 := by unfold State.dropEvent; split <;> rfl
@[simp] theorem State.dropEvent_buf : s.dropEvent.buf = s.buf := by unfold State.dropEvent; split <;> rfl
@[simp] theorem State.dropEvent_cnt : s.dropEvent.cnt = s.cnt := by unfold State.dropEvent; split <;> rfl
@[simp] theorem State.dropEvent_len : s.dropEvent.len = s.len := by unfold State.dropEvent; split <;> rfl
@[simp] theorem State.dropEvent_var : s.dropEvent.var = s.var := by unfold State.dropEvent; split <;> rfl
@[simp] theorem State.dropEvent_acc : s.dropEvent.acc = s.acc := by unfold State.dropEvent; split <;> rfl
@[simp] theorem State.dropEvent_tmr : s.dropEvent.tmr = s.tmr := by unfold State.dropEvent; split <;> rfl
@[simp] theorem State.dropEvent_stFrame : s.dropEvent.stFrame = s.stFrame := by unfold State.dropEvent; split <;> rfl
@[simp] theorem State.dropEvent_stVar : s.dropEvent.stVar = s.stVar := by unfold State.dropEvent; split <;> rfl
@[simp] theorem State.dropEvent_stValid : s.dropEvent.stValid = s.stValid := by unfold State.dropEvent; split <;> rfl
@[simp] theorem State.dropEvent_lastErr : s.dropEvent.lastErr = s.lastErr := by unfold State.dropEvent; split <;> rfl
@[simp] theorem State.dropEvent_cfg : s.dropEvent.cfg = s.cfg := by unfold State.dropEvent; split <;> rfl
@[simp] theorem State.dropEvent_source : s.dropEvent.source = s.source := by unfold State.dropEvent; split <;> rfl
@[simp] theorem State.dropEvent_outbound : s.dropEvent.outbound = s.outbound := by unfold State.dropEvent; split <;> rfl
@[simp] theorem State.dropEvent_out : s.dropEvent.out = s.out := by unfold State.dropEvent; split <;> rfl

theorem State.dropEvent_of_cons (e : Event) (es : List Event) (h : s.events = e :: es) :
    s.dropEvent = { s with events := es } := by unfold State.dropEvent; rw [h]

theorem State.nextEvent_of_cons (e : Event) (es : List Event) (h : s.events = e :: es) : s.nextEvent = e := by
  unfold State.nextEvent; rw [h]

theorem State.dropEvent_of_nil (h : s.events = []) : s.dropEvent = { s with fresh := s.fresh + 1 } := by
  unfold State.dropEvent; rw [h]

theorem State.nextEvent_of_nil (h : s.events = []) : s.nextEvent = Config.freeEvent s.fresh := by
  unfold State.nextEvent; rw [h]

end

end Sys2Proof.Machine
end

