-- ==== Sys2Proof/Laws/PerInstr.lean ====
section
/-! SUPPORT. Laws/PerInstr.lean: the family EncodedLength, stated of one instruction and proved constructor by constructor:
a well-formed instruction's encoding has the length its format gives it (30_encoding.md R70, R75, R82). -/

namespace Sys2Proof.Laws.EncodedLength

open Sys2Proof

/-- The encoding of a well-formed instruction has the instruction's length. -/
def Statement (i : Instr) : Prop := i.wf = true → (encode i).length = i.byteLength

theorem start : Statement .start := fun _ => rfl

theorem hold : Statement .hold := fun _ => rfl

theorem scanT : Statement .scanT := fun _ => rfl

theorem scanB (data : Byte) : Statement (.scanB data) := fun _ => rfl

theorem scanW : Statement .scanW := fun _ => rfl

theorem bodyT : Statement .bodyT := fun _ => rfl

theorem bodyB (data : Byte) : Statement (.bodyB data) := fun _ => rfl

theorem bodyW : Statement .bodyW := fun _ => rfl

theorem norm : Statement .norm := fun _ => rfl

theorem rslv : Statement .rslv := fun _ => rfl

theorem csum : Statement .csum := fun _ => rfl

theorem sigc : Statement .sigc := fun _ => rfl

theorem rsvd7 : Statement .rsvd7 := fun _ => rfl

theorem cmdPassive : Statement .cmdPassive := fun _ => rfl

theorem cmdRequest : Statement .cmdRequest := fun _ => rfl

theorem frame (len : Word) (body : List Byte) : Statement (.frame len body) := by
  intro h
  have hl : body.length = len.toNat := by simpa [Instr.wf] using h
  simp [encode, Instr.byteLength, Instr.format, hdr, hl]

end Sys2Proof.Laws.EncodedLength
end

