-- ==== Sys2Proof/Laws/Step.lean ====
section
/-! SUPPORT. Laws/Step.lean: what a step can do, said once. -/

namespace Sys2Proof.Machine

open Sys2Proof

theorem clockStep_reset (start tick : Bool) (s : State) : clockStep true start tick s = .next s.resetStep := rfl

/-- A clock step without reset is the operation of 30_encoding.md R76. -/
theorem clockStep_operation (start tick : Bool) (s : State) :
    clockStep false start tick s = exec (s.operation start tick) s := by
  simp [clockStep, decode_fetchBytes]

/-- Whatever bytes come in, they join the Byte Source (30_encoding.md R81). -/
theorem inboundStep_eq (bytes : List Byte) (s : State) : inboundStep bytes s = .next (s.receive bytes) := by
  unfold inboundStep
  split
  · rename_i i hd
    obtain ⟨len, body, rfl, -, hb⟩ := decodeW_ok _ _ _ hd
    rw [List.append_nil] at hb
    rw [hb]
    rfl
  · rfl

/-- An outbound act that goes on is one of the two commands (30_encoding.md R82). -/
theorem outboundStep_next (bytes : List Byte) (s t : State) (h : outboundStep bytes s = .next t) :
    (bytes = passiveBytes ∨ bytes = requestBytes) ∧ t = s.transmit bytes := by
  unfold outboundStep at h
  split at h
  · rename_i i hd
    obtain ⟨hi, hb⟩ := decodeQ_ok _ _ _ hd
    rw [List.append_nil] at hb
    rcases hi with rfl | rfl
    · cases h; exact ⟨.inl hb, by rw [hb]; rfl⟩
    · cases h; exact ⟨.inr hb, by rw [hb]; rfl⟩
  · cases h
  · cases h

/-- Everything a step that goes on can have done: a reset, one operation, bytes received, or a command sent. -/
theorem step_cases (s t : State) (h : step s = .next t) :
    (∃ start tick, s.nextEvent = .clock true start tick ∧ t = s.dropEvent.resetStep) ∨
      (∃ start tick, s.nextEvent = .clock false start tick ∧
        exec (s.dropEvent.operation start tick) s.dropEvent = .next t) ∨
      (∃ bytes, s.nextEvent = .inbound bytes ∧ t = s.dropEvent.receive bytes) ∨
      (∃ bytes, s.nextEvent = .outbound bytes ∧ (bytes = passiveBytes ∨ bytes = requestBytes) ∧
        t = s.dropEvent.transmit bytes) := by
  unfold step at h
  match he : s.nextEvent with
  | .clock true start tick =>
    rw [he] at h
    simp only [perform, clockStep_reset, Host.Outcome.next.injEq] at h
    exact .inl ⟨start, tick, rfl, h.symm⟩
  | .clock false start tick =>
    rw [he] at h
    simp only [perform, clockStep_operation] at h
    exact .inr (.inl ⟨start, tick, rfl, h⟩)
  | .inbound bytes =>
    rw [he] at h
    simp only [perform, inboundStep_eq, Host.Outcome.next.injEq] at h
    exact .inr (.inr (.inl ⟨bytes, rfl, h.symm⟩))
  | .outbound bytes =>
    rw [he] at h
    obtain ⟨hb, ht⟩ := outboundStep_next _ _ _ h
    exact .inr (.inr (.inr ⟨bytes, rfl, hb, ht⟩))

/-- Using up the event does not change which operation the step selects. -/
theorem State.operation_dropEvent (s : State) (start tick : Bool) :
    s.dropEvent.operation start tick = s.operation start tick := by
  simp [State.operation, State.valid, State.data]

end Sys2Proof.Machine
end

