-- ==== Sys2Proof/Tests/Slice0.lean ====
section
/-! SUPPORT. Tests/Slice0.lean: small tests, their expected results from 95_test_vectors.md (a number O<n>, E<n> or V<n> in a
comment) or worked out by hand from the encoding tables, and for every statement with hypotheses a state and operands that meet
them. -/

namespace Sys2Proof.Tests

open Sys2Proof Sys2Proof.Machine

/-! ### Helpers -/

/-- The reset state in phase `p`, with the budgets of the spec's programs, `T_SCAN = T_BODY = 3`. -/
def inPhase (p : Phase) : State := { State.reset with phase := p, cfg := { tScan := 3, tBody := 3 } }

/-- A buffer that begins with `bytes`, zeros after them. -/
def bufOf (bytes : List Byte) : Memory := Memory.tabulate fun i => bytes.getD i 0x00

/-- The state an outcome goes on with. -/
def nextOf (o : Host.Outcome State Fault Refusal) : Option State :=
  match o with
  | .next t => some t
  | .fault _ => none
  | .refused _ => none

/-- The fault an outcome stops with. -/
def faultOf (o : Host.Outcome State Fault Refusal) : Option Fault :=
  match o with
  | .fault f => some f
  | .next _ => none
  | .refused _ => none

/-- The refusal an outcome stops with. -/
def refusalOf (o : Host.Outcome State Fault Refusal) : Option Refusal :=
  match o with
  | .refused r => some r
  | .next _ => none
  | .fault _ => none

/-- What holds of the state an instruction leaves; false where it does not go on. -/
def leaves (i : Instr) (s : State) (p : State → Bool) : Bool := (nextOf (exec i s)).any p

/-- The outputs of a step, as the four columns of 95_test_vectors.md print them. -/
def outs (ready busy done : Bool) (result : Option ErrKind) : Out :=
  { ready := ready, busy := busy, done := done, result := result }

/-- The wire frame of vector V1. -/
def v1Wire : List Byte :=
  [0x42, 0x4D, 0x00, 0x1C, 0x00, 0x05, 0x00, 0x07, 0x00, 0x09, 0x00, 0x05, 0x00, 0x07, 0x00, 0x09] ++
  [0x03, 0x84, 0x01, 0x02, 0x00, 0x33, 0x00, 0x04, 0x00, 0xFA, 0x01, 0xC2, 0x91, 0x00, 0x03, 0xE4]

/-- The normalized buffer of vector V1. -/
def v1Normalized : List Byte :=
  [0x42, 0x4D, 0x1C, 0x00, 0x05, 0x00, 0x07, 0x00, 0x09, 0x00, 0x05, 0x00, 0x07, 0x00, 0x09, 0x00] ++
  [0x84, 0x03, 0x02, 0x01, 0x33, 0x00, 0x04, 0x00, 0xFA, 0x00, 0xC2, 0x01, 0x00, 0x91, 0xE4, 0x03]

/-- The least even frame, normalized (O64). -/
def leastNormalized : List Byte := [0x42, 0x4D, 0x02, 0x00, 0x91, 0x00]

/-! ### Well-formedness -/

theorem test_wf_frame : (Instr.frame 2 [0x00, 0x91]).wf = true := by decide

/-- A frame with fewer bytes than its length field counts is not well formed. -/
theorem test_wf_refuses_short_frame : (Instr.frame 3 [0x00, 0x91]).wf = false := by decide

/-- A frame with more bytes than its length field counts is not well formed. -/
theorem test_wf_refuses_long_frame : (Instr.frame 1 [0x00, 0x91]).wf = false := by decide

/-- R75: 1 to 28. -/
theorem test_len_accepted_bounds :
    lenAccepted 0 = false ∧ lenAccepted 1 = true ∧ lenAccepted 28 = true ∧ lenAccepted 29 = false := by decide

/-! ### Decoding: words written out from the tables, bits `x` both ways -/

theorem test_decode_start : decode .dispatch [0b00000111, 0x42] = .ok (.start, []) := by rfl
theorem test_decode_hold : decode .dispatch [0b00000011, 0x42] = .ok (.hold, []) := by rfl
theorem test_decode_scanT : decode .dispatch [0b00001111, 0x4D] = .ok (.scanT, []) := by rfl
theorem test_decode_scanB : decode .dispatch [0b00001101, 0x4D, 0xAA] = .ok (.scanB 0x4D, [0xAA]) := by rfl
theorem test_decode_scanW : decode .dispatch [0b00001100, 0x00] = .ok (.scanW, []) := by rfl
theorem test_decode_bodyT : decode .dispatch [0b00010011, 0xE4] = .ok (.bodyT, []) := by rfl
theorem test_decode_bodyB : decode .dispatch [0b00010101, 0x91] = .ok (.bodyB 0x91, []) := by rfl
theorem test_decode_bodyW : decode .dispatch [0b00010000, 0x00] = .ok (.bodyW, []) := by rfl
theorem test_decode_norm : decode .dispatch [0b00011101, 0x00] = .ok (.norm, []) := by rfl
theorem test_decode_rslv : decode .dispatch [0b00100010, 0x00] = .ok (.rslv, []) := by rfl
theorem test_decode_csum : decode .dispatch [0b00101111, 0x00] = .ok (.csum, []) := by rfl
theorem test_decode_sigc : decode .dispatch [0b00110000, 0x00] = .ok (.sigc, []) := by rfl
theorem test_decode_rsvd7 : decode .dispatch [0b00111100, 0x00] = .ok (.rsvd7, []) := by rfl

/-- E1. -/
theorem test_decode_passive :
    decode .command [0x42, 0x4D, 0xE1, 0x00, 0x00, 0x01, 0x70] = .ok (.cmdPassive, []) := by rfl

/-- E2. -/
theorem test_decode_request :
    decode .command [0x42, 0x4D, 0xE2, 0x00, 0x00, 0x01, 0x71] = .ok (.cmdRequest, []) := by rfl

/-- R71, with a byte after the frame. -/
theorem test_decode_frame :
    decode .wire [0x42, 0x4D, 0x00, 0x03, 0x92, 0x00, 0x77, 0x01] = .ok (.frame 3 [0x92, 0x00, 0x77], [0x01]) := by rfl

theorem test_decode_rejects_wide_dispatch : decode .dispatch [0x44, 0x00] = .error .wideDispatch := by rfl
theorem test_decode_rejects_truncated_dispatch : decode .dispatch [0x04] = .error .truncated := by rfl
theorem test_decode_rejects_unknown_command :
    decode .command [0x42, 0x4D, 0xE4, 0x00, 0x00, 0x01, 0x73] = .error .unknownCommand := by rfl
theorem test_decode_rejects_truncated_command : decode .command [0x42, 0x4D, 0xE1] = .error .truncated := by rfl
theorem test_decode_rejects_no_signature : decode .wire [0x4D, 0x42, 0x00, 0x00] = .error .noSignature := by rfl
theorem test_decode_rejects_truncated_frame : decode .wire [0x42, 0x4D, 0x00, 0x01] = .error .truncated := by rfl

/-- The table's layout of the frame row: its signature bits alone are the start of a frame of length 0. -/
theorem test_table_word_frame : decodeTableWord 16 0x424D = some (.frame 0 []) := by decide

/-- A table word runs first after reset. -/
theorem test_fetch_word_runs_first :
    (nextOf (step ((inPhase .idle).withFetchWord 8 0x04))).any (fun t => t.phase == .scan) = true := by decide

/-! ### One step of each instruction -/

/-- O2. -/
theorem test_start_clears_and_keeps :
    leaves .start
      { inPhase .idle with
        win0 := 0x42, win1 := 0x4D, buf := bufOf [0x42, 0x4D, 0x04, 0x00, 0x78, 0x56, 0x62, 0x01], cnt := 8, len := 4
        acc := 0x0161, lastErr := some .checksumError, stValid := true }
      (fun t => t.phase == .scan && t.win0 == 0x00 && t.win1 == 0x00 && t.buf == [] && t.cnt == 0 && t.len == 0 &&
        t.acc == 0 && t.lastErr == some .checksumError && t.stValid && t.out == outs false false false none) = true := by
  decide

/-- O4: the tick and the byte beside HOLD do nothing. -/
theorem test_hold_takes_nothing :
    (nextOf (step { inPhase .idle with source := [0x42], events := [.clock false false true] })).any
      (fun t => t.phase == .idle && t.source == [0x42] && t.tmr == 0 && t.out == outs false false false none) = true := by
  decide

/-- O11. -/
theorem test_scanB_locks :
    leaves (.scanB 0x4D) { inPhase .scan with win1 := 0x42, tmr := 2, source := [0x4D, 0x07] }
      (fun t => t.win0 == 0x42 && t.win1 == 0x4D && t.buf == [(0, 0x42), (1, 0x4D)] && t.cnt == 2 && t.tmr == 0 &&
        t.phase == .body && t.source == [0x07] && t.out == outs true true false none) = true := by decide

/-- O14: `4D 42 00` is no match. -/
theorem test_scanB_shifts :
    leaves (.scanB 0x00) { inPhase .scan with win0 := 0x4D, win1 := 0x42 }
      (fun t => t.win0 == 0x42 && t.win1 == 0x00 && t.phase == .scan && t.cnt == 0) = true := by decide

/-- O15. -/
theorem test_scanT_counts :
    leaves .scanT (inPhase .scan)
      (fun t => t.tmr == 1 && t.phase == .scan && t.out == outs false true false none) = true := by decide

/-- O16. -/
theorem test_scanT_times_out :
    (nextOf (step { inPhase .scan with tmr := 2, win1 := 0x42, source := [0x4D], events := [.clock false false true] })).any
      (fun t => t.tmr == 3 && t.lastErr == some .syncTimeout && t.phase == .idle && t.win1 == 0x42 && t.source == [0x4D] &&
        t.out == outs false true true (some .syncTimeout)) = true := by decide

/-- O18. -/
theorem test_scanW_waits :
    leaves .scanW (inPhase .scan) (fun t => t == { inPhase .scan with out := outs true true false none }) = true := by
  decide

/-- O28: complete wins over full. -/
theorem test_bodyB_completes_at_the_end :
    leaves (.bodyB 0xE4) { inPhase .body with cnt := 31, len := 28 }
      (fun t => t.buf == [(31, 0xE4)] && t.cnt == 32 && t.phase == .norm && t.out == outs true true false none) = true := by
  decide

/-- O24: `len' + 4` is not reduced mod 65536. -/
theorem test_bodyB_exact_length :
    leaves (.bodyB 0xFC) { inPhase .body with cnt := 3, buf := bufOf [0x42, 0x4D, 0xFF] }
      (fun t => t.len == 0xFFFC && t.cnt == 4 && t.phase == .body && t.out == outs true true false none) = true := by
  decide

/-- O31. -/
theorem test_bodyT_counts :
    leaves .bodyT { inPhase .body with tmr := 1 }
      (fun t => t.tmr == 2 && t.phase == .body && t.out == outs false true false none) = true := by decide

/-- O32. -/
theorem test_bodyT_times_out :
    leaves .bodyT { inPhase .body with tmr := 2, cnt := 31, len := 28 }
      (fun t => t.tmr == 3 && t.lastErr == some .bodyTimeout && t.phase == .idle && t.cnt == 31 &&
        t.out == outs false true true (some .bodyTimeout)) = true := by decide

/-- O33. -/
theorem test_bodyW_waits :
    leaves .bodyW (inPhase .body) (fun t => t == { inPhase .body with out := outs true true false none }) = true := by
  decide

/-- O41, V1. -/
theorem test_norm_v1 :
    leaves .norm { inPhase .norm with buf := bufOf v1Wire, len := 28 }
      (fun t => t.buf == bufOf v1Normalized && t.phase == .rslv && t.len == 28) = true := by decide

/-- O43: an odd length brings the zero beyond the frame to offset 6. -/
theorem test_norm_odd :
    leaves .norm { inPhase .norm with buf := bufOf [0x42, 0x4D, 0x00, 0x03, 0x92, 0x00, 0x77] }
      (fun t => t.buf == bufOf [0x42, 0x4D, 0x03, 0x00, 0x00, 0x92, 0x00, 0x77]) = true := by decide

/-- O50. -/
theorem test_rslv_extended :
    leaves .rslv { inPhase .rslv with buf := bufOf [0x42, 0x4D, 0x1C, 0x00] }
      (fun t => t.var == .extended && t.phase == .csum) = true := by decide

/-- O56: the high byte counts. -/
theorem test_rslv_compact :
    leaves .rslv { inPhase .rslv with buf := bufOf [0x42, 0x4D, 0x00, 0x1C], var := .extended }
      (fun t => t.var == .compact && t.phase == .csum) = true := by decide

/-- O60, V1: the longest frame. -/
theorem test_csum_passes :
    leaves .csum { inPhase .csum with buf := bufOf v1Normalized, len := 28 }
      (fun t => t.acc == 0x03E4 && t.phase == .sigc && t.out == outs false true false none) = true := by decide

/-- O67. -/
theorem test_csum_fails :
    leaves .csum { inPhase .csum with buf := bufOf [0x42, 0x4D, 0x01, 0x00, 0x00, 0x5A], len := 1 }
      (fun t => t.acc == 0x0090 && t.phase == .idle && t.lastErr == some .checksumError &&
        t.out == outs false true true (some .checksumError)) = true := by decide

/-- O70. -/
theorem test_sigc_commits :
    leaves .sigc { inPhase .sigc with buf := bufOf leastNormalized, lastErr := some .zeroLength }
      (fun t => t.stFrame == bufOf leastNormalized && t.stVar == .compact && t.stValid && t.lastErr == none &&
        t.phase == .idle && t.out == outs false true true none) = true := by decide

/-- O72. -/
theorem test_sigc_fails :
    leaves .sigc { inPhase .sigc with buf := bufOf [0x42, 0x4C] }
      (fun t => t.stFrame == [] && !t.stValid && t.lastErr == some .signatureError && t.phase == .idle &&
        t.out == outs false true true (some .signatureError)) = true := by decide

/-- O6. -/
theorem test_rsvd7_goes_idle :
    leaves .rsvd7 { inPhase .rsvd7 with lastErr := some .zeroLength }
      (fun t => t.phase == .idle && t.lastErr == some .zeroLength && t.out == outs false true false none) = true := by
  decide

/-- E1. -/
theorem test_passive_goes_out :
    leaves .cmdPassive (inPhase .scan)
      (fun t => t.outbound == [0x42, 0x4D, 0xE1, 0x00, 0x00, 0x01, 0x70] && t.source == []) = true := by decide

/-- E2: behind what was sent before. -/
theorem test_request_goes_out :
    leaves .cmdRequest { inPhase .idle with outbound := [0x01] }
      (fun t => t.outbound == [0x01, 0x42, 0x4D, 0xE2, 0x00, 0x00, 0x01, 0x71]) = true := by decide

/-- R71: length field big-endian, high byte first. -/
theorem test_frame_comes_in :
    leaves (.frame 0x0102 [0x05]) { inPhase .idle with source := [0x09] }
      (fun t => t.source == [0x09, 0x42, 0x4D, 0x01, 0x02, 0x05] && t.phase == .idle) = true := by decide

/-! ### Reset, ports, stops -/

/-- O91: reset wins over `start`. -/
theorem test_reset_wins :
    (nextOf (step
      { inPhase .idle with stValid := true, lastErr := some .checksumError, events := [.clock true true false] })).any
      (fun t => t.phase == .idle && !t.stValid && t.lastErr == none && t.out == outs false false false none) = true := by
  decide

/-- O81. -/
theorem test_field_port :
    let s := { inPhase .idle with stFrame := bufOf v1Normalized, stVar := .extended, stValid := true }
    s.fld 1 = some 0x001C ∧ s.fld 8 = some 0x0384 ∧ s.fld 15 = some 0x03E4 := by decide

/-- O80. -/
theorem test_field_port_empty : (inPhase .idle).fld 1 = none ∧ (inPhase .idle).fldOk = false := by decide

theorem test_outbound_refuses_other_bytes :
    refusalOf (step { inPhase .idle with events := [.outbound [0x42]] }) = some (.undecodable .truncated) := by decide

theorem test_outbound_refuses_trailing_bytes :
    refusalOf (step { inPhase .idle with events := [.outbound (passiveBytes ++ [0x00])] }) =
      some (.trailingBytes 1) := by decide

/-! ### Witnesses: a state and operands that meet a statement's hypotheses, for each of its clauses -/

/-- A state in which a frame is stored and SIGC is about to store another: it meets the invariant. -/
def rich : State :=
  { inPhase .sigc with
    win0 := 0x42, win1 := 0x4D, buf := bufOf leastNormalized, cnt := 6, len := 2, acc := 0x0091
    stFrame := bufOf leastNormalized, stValid := true, source := [0x11], events := List.replicate 10 (.clock false false true) }

theorem witness_rich_facts : ReachableFacts rich where
  scanEmpty := fun h => absurd h (by decide)
  bodyProgress := fun h => absurd h (by decide)
  postComplete := fun _ => by decide
  lengthNormalized := fun _ => by decide
  scanInBudget := fun h => absurd h (by decide)
  storeValidated := fun _ => by decide
  errorLegal := by unfold State.errorLegal; decide

theorem witness_rich_tail : ∀ a, a < 32 → 6 ≤ a → (bufOf leastNormalized).read a = 0x00 := by decide

/-- The hypothesis `Invariant s`, with a stored frame (`s.stValid = true`, `L = 2`, even). -/
theorem witness_invariant : Invariant rich where
  facts := witness_rich_facts
  windowLocked := fun _ => by decide
  wireComplete := fun h => absurd h (by decide)
  tailZero := fun _ _ a h h' => witness_rich_tail a h' h
  variantResolved := fun _ => by decide
  sumMatches := fun _ => by decide
  storeTailZero := fun _ _ a h h' => witness_rich_tail a h' h
  memoriesCanonical := ⟨rfl, rfl⟩
  phaseLegal := by unfold State.phaseLegal; decide
  cfgLegal := by decide

/-- The state `rich` goes to. -/
def richNext : State :=
  { rich with phase := .idle, events := List.replicate 9 (.clock false false true), out := outs false true true none }

/-- EveryStepKeepsTheInvariant, MemoriesStayCanonical, ConfigurationNeverChanges, PhasesNeverSkip, CommittedFramesAreValid,
ClockStepsGoOnUnderTheInvariant, OutputsFollowThePhase: a step from a state of the invariant, which commits. -/
theorem witness_step :
    rich.nextEvent = .clock false false true ∧ step rich = .next richNext ∧ richNext.out.done = true ∧
      richNext.out.result = none ∧ rich.memoriesCanonical :=
  ⟨rfl, rfl, rfl, rfl, rfl, rfl⟩

/-- StoredFieldsAreLengthChecksumAndZeros: `L = 2`, the last of its later fields. -/
theorem witness_stored_fields :
    rich.stValid = true ∧ rich.stFrame.read16 2 = 2 ∧ lenEven 2 = true ∧ (2 : Word).toNat / 2 + 1 < 15 := by decide

/-- TheInvariantHoldsAfterReset, ReachableStatesSatisfyR39. -/
theorem witness_initial : (inPhase .idle).isInitial := ⟨by decide, rfl⟩

theorem witness_reachable : Reachable (inPhase .idle) := .initial _ witness_initial

/-- ReachableStatesSatisfyR39: a state a step away from an initial one. -/
theorem witness_reachable_step :
    ∃ t, Reachable t ∧ t.phase = .scan :=
  ⟨_, .step { inPhase .idle with events := [.clock false true false] } _ (.initial _ ⟨by decide, rfl⟩) rfl, rfl⟩

/-- StartForgetsThePreviousRead: two states that differ in working registers alone. -/
theorem witness_start_forgets :
    let s := inPhase .idle
    let s' := { s with win0 := 0x42, cnt := 8, acc := 7, buf := bufOf [0x42] }
    s.storeEq s' ∧ s'.lastErr = s.lastErr ∧ s'.source = s.source ∧ s.envEq s' ∧ s' ≠ s := by
  exact ⟨⟨rfl, rfl, rfl⟩, rfl, rfl, ⟨rfl, rfl, rfl, rfl⟩, by decide⟩

/-- BodyByteStoresLatchesAndDecides, its four branches where they meet: counts 3 and 31, and lengths 0, 1, 28, 29. -/
theorem witness_body_byte :
    leaves (.bodyB 0x00) { inPhase .body with cnt := 3 }
      (fun t => t.phase == .idle && t.lastErr == some .zeroLength && t.cnt == 4) = true ∧
    leaves (.bodyB 0x01) { inPhase .body with cnt := 3 } (fun t => t.phase == .body && t.len == 1) = true ∧
    leaves (.bodyB 0x00) { inPhase .body with cnt := 31, len := 28 } (fun t => t.phase == .norm) = true ∧
    leaves (.bodyB 0x00) { inPhase .body with cnt := 31, len := 29 }
      (fun t => t.phase == .idle && t.lastErr == some .bodyTimeout) = true := by decide

/-- NormTwiceRestoresTheBuffer. -/
theorem witness_norm_twice : (bufOf v1Wire).wf = true := by decide

/-- CsumComparesExactSumWithReceived at its bound, and OnlyOffsetsAbove31Fault one above it; likewise BODY.B. -/
theorem witness_bounds :
    (28 : Word).toNat ≤ 28 ∧ 29 ≤ (29 : Word).toNat ∧ (nextOf (exec .csum { inPhase .csum with len := 28 })).isSome = true ∧
    faultOf (exec .csum { inPhase .csum with len := 29 }) = some (.bufferOffset 32) ∧
    faultOf (exec (.bodyB 0x00) { inPhase .body with cnt := 32 }) = some (.bufferOffset 32) := by decide

/-- FrameBytesJoinTheByteSource. -/
theorem witness_frame_length :
    (0x0102 : Word).toNat = 256 * (0x01 : Byte).toNat + (0x02 : Byte).toNat := by decide

/-- ResetStepClearsEveryRegister, PhasesFollowTheTransitionTable: a reset step placed. -/
theorem witness_reset_placed : { rich with events := [.clock true true true] }.events = .clock true true true :: [] := rfl

/-- ClockStepRunsTheSelectedOperation. -/
theorem witness_clock_placed :
    rich.events = .clock false false true :: List.replicate 9 (.clock false false true) := rfl

/-- DecodeOfEncodeIsTheInstruction, at an odd and at the empty frame; DecodeAcceptsOnlyEncodings, a format each. -/
theorem witness_decode :
    (Instr.frame 3 [0x92, 0x00, 0x77]).wf = true ∧ (Instr.frame 0 []).wf = true ∧
    decode .dispatch [0b00000111, 0x42] = .ok (.start, []) ∧ decode .command passiveBytes = .ok (.cmdPassive, []) ∧
    decode .wire [0x42, 0x4D, 0x00, 0x01, 0x5A] = .ok (.frame 1 [0x5A], []) :=
  ⟨rfl, rfl, rfl, rfl, rfl⟩

/-- StepRunsTheDecodedInstruction, its three clauses; AnyInboundBytesAreLegal. -/
theorem witness_step_decodes :
    decode .dispatch (State.fetchBytes { inPhase .scan with source := [0x42] } false false) = .ok (.scanB 0x42, []) ∧
    { rich with events := [.inbound [0x42, 0x4D, 0x00, 0x00]] }.events = .inbound [0x42, 0x4D, 0x00, 0x00] :: [] ∧
    decode .wire [0x42, 0x4D, 0x00, 0x00] = .ok (.frame 0 [], []) ∧
    { rich with events := [.outbound requestBytes] }.events = .outbound requestBytes :: [] ∧
    decode .command requestBytes = .ok (.cmdRequest, []) :=
  ⟨rfl, rfl, rfl, rfl, rfl⟩

/-- IgnoredInputsChangeNothing: a phase for each clause, and a post phase in which the step goes on. -/
theorem witness_ignored_inputs :
    Phase.scan ≠ .idle ∧ Phase.isWait .idle = false ∧ Phase.isWait .norm = false ∧ Phase.isWait .body = true ∧
    (nextOf (step { inPhase .norm with events := [.clock false true true] })).isSome = true := by decide

/-- OutputsFollowThePhase, ByteSourceIsFirstInFirstOut, InstructionsWriteOnlyTheirRegisters: a step that takes the byte on
offer. -/
theorem witness_byte_taken :
    let s := { inPhase .scan with source := [0x11, 0x22], events := [.clock false false false] }
    ∃ t, s.nextEvent = .clock false false false ∧ step s = .next t ∧ s.source = 0x11 :: t.source ∧ t.out.ready = true :=
  ⟨_, rfl, rfl, rfl, rfl⟩

/-- ByteSourceIsFirstInFirstOut: bytes that come in. -/
theorem witness_bytes_in :
    let s := { inPhase .idle with source := [0x11], events := [.inbound [0x22]] }
    ∃ t, s.nextEvent = .inbound [0x22] ∧ step s = .next t ∧ t.source = [0x11, 0x22] :=
  ⟨_, rfl, rfl, rfl⟩

/-- A read that ends with an error: PhasesFollowTheTransitionTable, FailedReadsKeepTheStoredFrame,
ErrorFlagTellsHowTheLastReadEnded. -/
theorem witness_failed_read :
    isOperation .scanT ∧ ∃ t, exec .scanT { inPhase .scan with tmr := 2, stValid := true } = .next t ∧ t.out.done = true ∧
      t.out.result = some .syncTimeout :=
  ⟨rfl, _, rfl, rfl, rfl⟩

/-- ErrorFlagTellsHowTheLastReadEnded: a step that does not end a read. -/
theorem witness_read_goes_on :
    isOperation .scanW ∧ ∃ t, exec .scanW (inPhase .scan) = .next t ∧ t.out.done = false :=
  ⟨rfl, _, rfl, rfl⟩

/-- StoreChangesOnlyByCommit: a step that changes the store and the frame port. -/
theorem witness_store_changes :
    let s := { inPhase .sigc with buf := bufOf leastNormalized, events := [.clock false false false] }
    ∃ t, step s = .next t ∧ (∀ start tick, s.nextEvent ≠ .clock true start tick) ∧ ¬ s.storeEq t ∧
      t.framePort ≠ s.framePort := by
  refine ⟨_, rfl, ?_, ?_, by decide⟩
  · intro start tick h
    cases h
  · intro h
    exact absurd h.2.2 (by decide)

/-- ValidBitIsClearedOnlyByReset. -/
theorem witness_valid_cleared :
    let s := { rich with events := [.clock true false false] }
    ∃ t, s.stValid = true ∧ step s = .next t ∧ t.stValid = false :=
  ⟨_, rfl, rfl, rfl⟩

/-- LastErrorIsWrittenOnlyWhenAReadEnds. -/
theorem witness_last_error_written :
    let s := { inPhase .body with tmr := 2, events := [.clock false false true] }
    ∃ t, step s = .next t ∧ (∀ start tick, s.nextEvent ≠ .clock true start tick) ∧ t.lastErr ≠ s.lastErr := by
  refine ⟨_, rfl, ?_, by decide⟩
  intro start tick h
  cases h

/-- NormKeepsTheZerosBeyondAnEvenFrame: the length 26, for which two offsets lie beyond. -/
theorem witness_norm_zeros :
    lenEven 26 = true ∧ ∀ a, (26 : Word).toNat + 4 ≤ a → a < 32 → (bufOf (v1Wire.take 30)).read a = 0x00 := by
  refine ⟨by decide, fun a h h' => ?_⟩
  have key : ∀ a, a < 32 → 30 ≤ a → (bufOf (v1Wire.take 30)).read a = 0x00 := by decide
  exact key a h' h

/-- SingleByteChangesAreDetected: V1, at the first payload byte and at the last checksum byte. -/
theorem witness_single_byte :
    let s := { inPhase .norm with buf := bufOf v1Wire, len := 28 }
    lenEven s.len = true ∧ 2 ≤ s.len.toNat ∧ s.len.toNat ≤ 28 ∧ 4 ≤ 31 ∧ 31 ≤ s.len.toNat + 3 ∧
      (0x01 : Byte) ≠ s.buf.read 4 ∧ (0xE5 : Byte) ≠ s.buf.read 31 ∧
      ∃ t, runOps [.norm, .rslv, .csum] s = .next t ∧ t.phase = .sigc :=
  ⟨by decide, by decide, by decide, by decide, by decide, by decide, by decide, _, rfl, by decide⟩

/-- OddLengthsSumAcrossThePairs: the lengths 1 and 27, and vector O66, whose checksum passes. -/
theorem witness_odd_lengths :
    (1 : Word).toNat % 2 = 1 ∧ (27 : Word).toNat % 2 = 1 ∧ (27 : Word).toNat ≤ 27 ∧ (bufOf (v1Wire.take 31)).read 31 = 0x00 ∧
    ∃ t, runOps [.norm, .rslv, .csum]
      { inPhase .norm with buf := bufOf [0x42, 0x4D, 0x00, 0x03, 0x92, 0x00, 0x77], len := 3 } = .next t ∧ t.phase = .sigc :=
  ⟨by decide, by decide, by decide, by decide, _, rfl, by decide⟩

/-- ScannerStopsAtTheFirstSignature: bytes that end in the first signature, a tick among them, and bytes with none. -/
theorem witness_scanner_stops :
    (∀ i ∈ [Instr.scanB 0x42, .scanT, .scanB 0x42, .scanB 0x4D], isScanOp i = true) ∧
    scanTicks [.scanB 0x42, .scanT, .scanB 0x42, .scanB 0x4D] < (inPhase .idle).cfg.tScan ∧
    (∀ n, n + 2 < (scanBytes [.scanB 0x42, .scanT, .scanB 0x42, .scanB 0x4D]).length →
      ¬ pairAt (scanBytes [.scanB 0x42, .scanT, .scanB 0x42, .scanB 0x4D]) n) ∧
    pairAt (scanBytes [.scanB 0x42, .scanT, .scanB 0x42, .scanB 0x4D]) 1 ∧
    (∀ n, n + 2 < (scanBytes [.scanB 0x4D, .scanB 0x42]).length → ¬ pairAt (scanBytes [.scanB 0x4D, .scanB 0x42]) n) := by
  refine ⟨by decide, by decide, fun n h => ?_, ⟨rfl, rfl⟩, fun n h => absurd h (by simp [scanBytes])⟩
  have hn : n = 0 := by simp [scanBytes] at h; omega
  subst hn
  intro hp
  exact absurd hp.2 (by decide)

/-- ScannerTimesOutAtTheBudgetTick: two ticks of a budget of three, with a byte and a poll among them. -/
theorem witness_scanner_times_out :
    (∀ i ∈ [Instr.scanT, .scanB 0x42, .scanW, .scanT], isScanOp i = true) ∧
    (∀ n, ¬ pairAt (scanBytes [.scanT, .scanB 0x42, .scanW, .scanT]) n) ∧
    scanTicks [.scanT, .scanB 0x42, .scanW, .scanT] < (inPhase .idle).cfg.tScan ∧
    scanTicks [.scanT, .scanB 0x42, .scanW, .scanT] + 1 = (inPhase .idle).cfg.tScan := by
  refine ⟨by decide, fun n hp => ?_, by decide, by decide⟩
  have h := hp.2
  simp [scanBytes] at h

/-- ReaderFollowsTheDeclaredLength: the state a match leaves, and the lengths 0, 1, 28 and 29. -/
theorem witness_reader :
    let s := { inPhase .body with buf := bufOf [0x42, 0x4D], cnt := 2 }
    s.phase = .body ∧ s.cnt = 2 ∧ s.buf.read 0 = 0x42 ∧ s.buf.read 1 = 0x4D ∧
      (∀ a, a < 32 → 2 ≤ a → s.buf.read a = 0x00) ∧
      256 * (0x00 : Byte).toNat + (0x00 : Byte).toNat = 0 ∧ 256 * (0x00 : Byte).toNat + (0x01 : Byte).toNat = 1 ∧
      [(0x5A : Byte)].length = 1 ∧ 256 * (0x00 : Byte).toNat + (0x1C : Byte).toNat = 28 ∧
      256 * (0x00 : Byte).toNat + (0x1D : Byte).toNat = 29 ∧ (List.replicate 28 (0x11 : Byte)).length = 28 := by decide

/-- SenderFramesAreStored: one state with the shortest frame at the head of the Byte Source, a byte after it, and its
`len + 9` clock steps placed. -/
theorem witness_sender_shortest :
    let s := { inPhase .idle with
      source := [0x42, 0x4D, 0x00, 0x02, 0x00, 0x91, 0x07]
      events := .clock false true false :: List.replicate 10 (.clock false false false) }
    s.phase = .idle ∧ senderFrame 2 [0x00, 0x91] ∧ s.source = encode (.frame 2 [0x00, 0x91]) ++ [0x07] ∧
      s.events =
        .clock false true false :: (List.replicate ((2 : Word).toNat + 8) (Event.clock false false false) ++ []) :=
  ⟨rfl, ⟨by decide, by decide, by decide, by decide⟩, by decide, by decide⟩

/-- SenderFramesAreStored: the same with V1, the longest frame, and nothing after it. -/
theorem witness_sender_longest :
    let s := { inPhase .idle with
      source := v1Wire
      events := .clock false true false :: List.replicate 36 (.clock false false false) }
    s.phase = .idle ∧ senderFrame 28 (v1Wire.drop 4) ∧ s.source = encode (.frame 28 (v1Wire.drop 4)) ++ [] ∧
      s.events =
        .clock false true false :: (List.replicate ((28 : Word).toNat + 8) (Event.clock false false false) ++ []) :=
  ⟨rfl, ⟨by decide, by decide, by decide, by decide⟩, by decide, by decide⟩

/-- EveryReadEndsWhenTicksCome: `rich`, with ten ticks to come and budgets of three. -/
theorem witness_read_ends :
    rich.phase ≠ .idle ∧ rich.events = List.replicate 10 (.clock false false true) ++ [] ∧
    (∀ e ∈ List.replicate 10 (Event.clock false false true), letsReadGoOn e = true) ∧
    rich.cfg.tScan + rich.cfg.tBody + 4 ≤ tickCount (List.replicate 10 (.clock false false true)) :=
  ⟨by decide, rfl, by decide, by decide⟩

/-- TicksAloneEndTheReadInSyncTimeout, at the least budget. -/
theorem witness_ticks_alone :
    let s := { inPhase .idle with cfg := { tScan := 1, tBody := 1 }, events := [.clock false true true, .clock false true true] }
    s.phase = .idle ∧ 1 ≤ s.cfg.tScan ∧
      s.events = .clock false true true :: (List.replicate s.cfg.tScan (.clock false true true) ++ []) :=
  ⟨rfl, by decide, rfl⟩

/-- FieldPortReadsTheStoredFrame: both ends of its range, with and without a frame. -/
theorem witness_field_port :
    (rich.fld 1).isSome = true ∧ (rich.fld 15).isSome = true ∧ rich.fld 0 = none ∧ rich.fld 16 = none ∧
    (inPhase .idle).fld 15 = none := by decide

end Sys2Proof.Tests
end

section
/-! SUPPORT. What a clock step drives and takes (00_scope.md R10): first for the operations, then for the clock step that
selects one, then OutputsFollowThePhase. -/

namespace Sys2Proof.Machine

open Sys2Proof

/-! ### The operations -/

/-- The operations of the wait and post phases: every row of the dispatch table (30_encoding.md R77) but START, HOLD and
RSVD7. -/
def runsRead : Instr → Bool
  | .scanT | .scanB _ | .scanW | .bodyT | .bodyB _ | .bodyW | .norm | .rslv | .csum | .sigc => true
  | .start | .hold | .rsvd7 | .cmdPassive | .cmdRequest | .frame _ _ => false

/-- The operations of a step with `ready = 1` (00_scope.md R10): a byte or a poll in a wait phase. -/
def offersReady : Instr → Bool
  | .scanB _ | .scanW | .bodyB _ | .bodyW => true
  | _ => false

/-- The operations that take the byte on offer (20_memory.md R51). -/
def takesOffer : Instr → Bool
  | .scanB _ | .bodyB _ => true
  | _ => false

/-- What an operation that runs a read does, told by `ready` and the Byte Source it leaves: the read goes on, or the
operation ends it by COMMIT or FAIL (46_reading_store.md R151, R152). -/
inductive ReadOutcome (ready : Bool) (source : List Byte) (s t : State) : Prop
  | goesOn (out : t.out = { ready := ready, busy := true, done := false, result := none })
      (phase : t.phase = .idle → s.phase = .idle) (lastErr : t.lastErr = s.lastErr) (left : t.source = source)
  | ends (out : t.out = { ready := ready, busy := true, done := true, result := t.lastErr }) (phase : t.phase = .idle)
      (left : t.source = source)

theorem State.countTick_readOutcome (s : State) (budget : Nat) (k : ErrKind) :
    ReadOutcome false s.source s ((s.drive false true).countTick budget k) := by
  rcases Nat.lt_or_ge ((s.drive false true).tmr + 1) budget with hlt | hle
  · rw [State.countTick_of_lt _ _ _ hlt]
    exact .goesOn rfl id rfl rfl
  · rw [State.countTick_of_le _ _ _ hle]
    exact .ends rfl rfl rfl

theorem State.followVerdict_readOutcome (s : State) (data : Byte) (v : BodyVerdict) :
    ReadOutcome true (s.source.drop 1) s (((s.takeByte.drive true true).storeByte data).followVerdict v) := by
  cases v with
  | zeroLength | full => exact .ends rfl rfl rfl
  | complete => exact .goesOn rfl nofun rfl rfl
  | more => exact .goesOn rfl id rfl rfl

/-- Every operation that runs a read lets it go on or ends it. -/
theorem exec_readOutcome (i : Instr) (s t : State) (hi : runsRead i = true) (h : exec i s = .next t) :
    ReadOutcome (offersReady i) (if takesOffer i then s.source.drop 1 else s.source) s t := by
  cases i with
  | start | hold | rsvd7 | cmdPassive | cmdRequest | frame => cases hi
  | scanW | bodyW => cases h; exact .goesOn rfl id rfl rfl
  | norm | rslv => cases h; exact .goesOn rfl nofun rfl rfl
  | scanT | bodyT => cases h; exact State.countTick_readOutcome ..
  | scanB data =>
    simp only [exec, execScanB] at h
    split at h <;> cases h
    · exact .goesOn rfl nofun rfl rfl
    · exact .goesOn rfl id rfl rfl
  | bodyB data =>
    simp only [exec, execBodyB] at h
    split at h <;> cases h
    exact State.followVerdict_readOutcome ..
  | csum =>
    simp only [exec, execCsum] at h
    split at h
    · split at h <;> cases h
      · exact .goesOn rfl nofun rfl rfl
      · exact .ends rfl rfl rfl
    · cases h
  | sigc =>
    simp only [exec, execSigc] at h
    split at h <;> cases h <;> exact .ends rfl rfl rfl

/-! ### The operation that a clock step selects -/

theorem runsRead_operation (s : State) (start tick : Bool) :
    runsRead (s.operation start tick) = true ↔ s.phase ≠ .idle ∧ s.phase ≠ .rsvd7 := by
  unfold State.operation
  cases s.phase <;> cases start <;> cases tick <;> cases s.valid <;> simp [selectOperation, runsRead]

theorem offersReady_operation (s : State) (start tick : Bool) :
    offersReady (s.operation start tick) = s.ready false tick := by
  unfold State.operation State.ready
  cases s.phase <;> cases start <;> cases tick <;> cases s.valid <;> rfl

theorem takesOffer_operation (s : State) (start tick : Bool) :
    takesOffer (s.operation start tick) = (s.valid && s.ready false tick) := by
  unfold State.operation State.ready
  cases s.phase <;> cases start <;> cases tick <;> cases s.valid <;> rfl

/-- In IDLE and in the reserved phase an operation only drives `busy` (00_scope.md R10; 30_encoding.md R79). -/
theorem exec_operation_outside_read (s t : State) (start tick : Bool) (hp : s.phase = .idle ∨ s.phase = .rsvd7)
    (h : exec (s.operation start tick) s = .next t) :
    t.out = { ready := false, busy := s.busy, done := false, result := none } ∧ t.source = s.source := by
  rcases hp with hp | hp <;> rw [State.operation, hp] at h <;> rw [State.busy, hp]
  · cases start <;> cases h <;> exact ⟨rfl, rfl⟩
  · cases h; exact ⟨rfl, rfl⟩

/-! ### The clock step -/

theorem State.ready_iff (s : State) (rst tick : Bool) :
    s.ready rst tick = true ↔ (s.phase = .scan ∨ s.phase = .body) ∧ tick = false ∧ rst = false := by
  simp [State.ready, Phase.isWait, and_assoc]

theorem State.busy_iff (s : State) : s.busy = true ↔ s.phase ≠ .idle := by
  simp [State.busy]

@[simp] theorem State.dropEvent_ready (s : State) (rst tick : Bool) : s.dropEvent.ready rst tick = s.ready rst tick := by
  simp [State.ready]

@[simp] theorem State.dropEvent_busy (s : State) : s.dropEvent.busy = s.busy := by simp [State.busy]

@[simp] theorem State.dropEvent_valid (s : State) : s.dropEvent.valid = s.valid := by simp [State.valid]

/-- A clock step from `s` to `t` ends a read: it leaves a wait or post phase for IDLE, and not by reset. -/
def endsRead (rst : Bool) (s t : State) : Prop :=
  rst = false ∧ s.phase ≠ .idle ∧ s.phase ≠ .rsvd7 ∧ t.phase = .idle

/-- What a clock step takes and drives (00_scope.md R10): `ready` and `busy` by the phase before it, `done` and the
code exactly where it ends a read. -/
theorem clockStep_outputs (s t : State) (rst start tick : Bool) (h : clockStep rst start tick s = .next t) :
    t.source = (if s.valid ∧ s.ready rst tick then s.source.drop 1 else s.source) ∧
      (¬ endsRead rst s t ∧ t.out = { ready := s.ready rst tick, busy := s.busy, done := false, result := none } ∨
        endsRead rst s t ∧
          t.out = { ready := s.ready rst tick, busy := s.busy, done := true, result := t.lastErr }) := by
  cases rst with
  | true =>
    cases h
    have hready : s.ready true tick = false := by simp [State.ready]
    simp [hready, endsRead, State.resetStep, State.busy]
  | false =>
    rw [clockStep_operation] at h
    by_cases hread : s.phase ≠ .idle ∧ s.phase ≠ .rsvd7
    · have hbusy : s.busy = true := s.busy_iff.mpr hread.1
      have ho := exec_readOutcome _ s t ((runsRead_operation ..).mpr hread) h
      rw [offersReady_operation, takesOffer_operation] at ho
      cases ho with
      | goesOn out phase _ left =>
        exact ⟨by simpa using left, .inl ⟨fun ⟨_, _, _, hidle⟩ => hread.1 (phase hidle), by rw [out, hbusy]⟩⟩
      | ends out phase left =>
        exact ⟨by simpa using left, .inr ⟨⟨rfl, hread.1, hread.2, phase⟩, by rw [out, hbusy]⟩⟩
    · have hp : s.phase = .idle ∨ s.phase = .rsvd7 := by tauto
      have hready : s.ready false tick = false := by
        rcases hp with hp | hp <;> simp [State.ready, Phase.isWait, hp]
      obtain ⟨out, left⟩ := exec_operation_outside_read s t start tick hp h
      exact ⟨by simp [left, hready], .inl ⟨fun ⟨_, hidle, hrsvd7, _⟩ => hread ⟨hidle, hrsvd7⟩, by rw [out, hready]⟩⟩

/-- Settles O28: what the clock step that the event gives drives, read off at the state before the event is used up. -/
theorem outputsFollowThePhase : Obligations.OutputsFollowThePhase := by
  intro s t rst start tick he h
  have hc : clockStep rst start tick s.dropEvent = .next t := by rw [← h, step, he]; rfl
  obtain ⟨left, houts⟩ := clockStep_outputs _ t rst start tick hc
  simp only [endsRead, State.dropEvent_phase, State.dropEvent_source, State.dropEvent_ready, State.dropEvent_busy,
    State.dropEvent_valid, ← State.busy_iff] at left houts
  rw [← List.drop_one, ← s.busy_iff, ← s.ready_iff]
  rcases houts with ⟨hnot, out⟩ | ⟨hends, out⟩
  · simpa [out, left] using hnot
  · simp [out, left, hends]

end Sys2Proof.Machine
end

section
/-! SUPPORT. What each instruction writes (10_state.md R34): first every state an instruction with branches can leave,
then the registers it leaves alone, then the phase it goes to. -/

namespace Sys2Proof.Machine

open Sys2Proof

/-! ### The instructions with branches -/

/-- SCAN.B with its byte taken and in the window, before the match (41_frame_scanner.md R110). -/
def State.scanned (s : State) (data : Byte) : State := (s.takeByte.drive true true).shiftWindow data

/-- BODY.B with its byte taken and stored, before the verdict (42_frame_reader.md R120). -/
def State.appended (s : State) (data : Byte) : State := (s.takeByte.drive true true).storeByte data

/-- CSUM with its sum taken, before the test (45_checksum_validator.md R140). -/
def State.summed (s : State) : State := { s.drive false true with acc := computedSum s.buf s.len }

section
variable {s t : State}

theorem exec_scanB_cases {data : Byte} (h : exec (.scanB data) s = .next t) :
    ((s.win1 = 0x42 ∧ data = 0x4D) ∧ t = (s.scanned data).lockFrame) ∨
      (¬(s.win1 = 0x42 ∧ data = 0x4D) ∧ t = s.scanned data) := by
  rw [← signatureSeen_iff]
  simp only [exec, execScanB] at h
  split at h <;> rename_i hseen <;> cases h
  · exact .inl ⟨hseen, rfl⟩
  · exact .inr ⟨hseen, rfl⟩

theorem exec_bodyB_cases {data : Byte} (h : exec (.bodyB data) s = .next t) :
    s.cnt.toNat ≤ 31 ∧
      t = (s.appended data).followVerdict
        (bodyVerdict (s.cnt.toNat + 1) (lengthAfter s.buf s.len (s.cnt.toNat + 1) data)) := by
  simp only [exec, execBodyB] at h
  split at h
  · rename_i hcnt
    cases h
    exact ⟨Nat.lt_succ_iff.mp hcnt, rfl⟩
  · cases h

theorem exec_csum_cases (h : exec .csum s = .next t) :
    (computedSum s.buf s.len = receivedSum s.buf s.len ∧ t = { s.summed with phase := .sigc }) ∨
      (computedSum s.buf s.len ≠ receivedSum s.buf s.len ∧ t = s.summed.fail .checksumError) := by
  rw [Ne, ← beq_iff_eq (a := computedSum s.buf s.len)]
  simp only [exec, execCsum] at h
  split at h
  · split at h <;> rename_i hsum <;> cases h
    · exact .inl ⟨hsum, rfl⟩
    · exact .inr ⟨hsum, rfl⟩
  · cases h

theorem exec_sigc_cases (h : exec .sigc s = .next t) :
    ((s.buf.read 0 = 0x42 ∧ s.buf.read 1 = 0x4D) ∧ t = (s.drive false true).commit) ∨
      (¬(s.buf.read 0 = 0x42 ∧ s.buf.read 1 = 0x4D) ∧ t = (s.drive false true).fail .signatureError) := by
  rw [← signatureHolds_iff]
  simp only [exec, execSigc] at h
  split at h <;> rename_i hsig <;> cases h
  · exact .inl ⟨hsig, rfl⟩
  · exact .inr ⟨hsig, rfl⟩

theorem State.countTick_cases (s : State) (budget : Nat) (k : ErrKind) :
    (s.tmr + 1 < budget ∧ s.countTick budget k = { s with tmr := s.tmr + 1 }) ∨
      (budget ≤ s.tmr + 1 ∧ s.countTick budget k = ({ s with tmr := s.tmr + 1 }).fail k) := by
  rcases Nat.lt_or_ge (s.tmr + 1) budget with hlt | hle
  · exact .inl ⟨hlt, s.countTick_of_lt budget k hlt⟩
  · exact .inr ⟨hle, s.countTick_of_le budget k hle⟩

end

/-! ### The registers an instruction leaves alone -/

/-- The "writes" column of 10_state.md R34, register by register: `i` takes `s` to `t` and writes no other register. -/
structure WritesOnly (i : Instr) (s t : State) : Prop where
  window : i ≠ .start → (∀ data, i ≠ .scanB data) → t.win0 = s.win0 ∧ t.win1 = s.win1
  buf : i ≠ .start → (∀ data, i ≠ .scanB data) → (∀ data, i ≠ .bodyB data) → i ≠ .norm → t.buf = s.buf
  cnt : i ≠ .start → (∀ data, i ≠ .scanB data) → (∀ data, i ≠ .bodyB data) → t.cnt = s.cnt
  len : i ≠ .start → (∀ data, i ≠ .bodyB data) → t.len = s.len
  var : i ≠ .start → i ≠ .rslv → t.var = s.var
  acc : i ≠ .start → i ≠ .csum → t.acc = s.acc
  tmr : i ≠ .start → (∀ data, i ≠ .scanB data) → i ≠ .scanT → i ≠ .bodyT → t.tmr = s.tmr
  store : i ≠ .sigc → s.storeEq t
  lastErr : i ≠ .scanT → (∀ data, i ≠ .bodyB data) → i ≠ .bodyT → i ≠ .csum → i ≠ .sigc → t.lastErr = s.lastErr
  phase : i = .hold ∨ i = .scanW ∨ i = .bodyW ∨ ¬ isOperation i → t.phase = s.phase
  source : (∀ data, i ≠ .scanB data) → (∀ data, i ≠ .bodyB data) → (∀ len body, i ≠ .frame len body) →
    t.source = s.source
  outbound : i ≠ .cmdPassive → i ≠ .cmdRequest → t.outbound = s.outbound
  out : ¬ isOperation i → t.out = s.out
  cfg : t.cfg = s.cfg
  events : t.events = s.events
  fresh : t.fresh = s.fresh

theorem exec_writesOnly {i : Instr} {s t : State} (h : exec i s = .next t) : WritesOnly i s t := by
  cases i with
  | start | hold | scanW | bodyW | norm | rslv | rsvd7 | cmdPassive | cmdRequest | frame =>
    cases h
    constructor <;> simp [State.storeEq, isOperation, Instr.format]
  | scanT | bodyT =>
    cases h
    rcases State.countTick_cases (s.drive false true) _ _ with ⟨-, ht⟩ | ⟨-, ht⟩
    all_goals rw [ht]; constructor <;> simp [State.storeEq, isOperation, Instr.format]
  | scanB data =>
    rcases exec_scanB_cases h with ⟨-, rfl⟩ | ⟨-, rfl⟩
    all_goals constructor <;> simp [State.scanned, State.storeEq, isOperation, Instr.format]
  | bodyB data =>
    obtain ⟨-, rfl⟩ := exec_bodyB_cases h
    cases bodyVerdict (s.cnt.toNat + 1) (lengthAfter s.buf s.len (s.cnt.toNat + 1) data)
    all_goals constructor <;> simp [State.appended, State.followVerdict, State.storeEq, isOperation, Instr.format]
  | csum =>
    rcases exec_csum_cases h with ⟨-, rfl⟩ | ⟨-, rfl⟩
    all_goals constructor <;> simp [State.summed, State.storeEq, isOperation, Instr.format]
  | sigc =>
    rcases exec_sigc_cases h with ⟨-, rfl⟩ | ⟨-, rfl⟩
    all_goals constructor <;> simp [isOperation, Instr.format]

/-- Settles O31: the frame of each instruction, clause by clause. -/
theorem instructionsWriteOnlyTheirRegisters : Obligations.InstructionsWriteOnlyTheirRegisters := by
  intro i s t h
  have w := exec_writesOnly h
  exact ⟨w.window, w.buf, w.cnt, w.len, w.var, w.acc, w.tmr, w.store, w.lastErr, w.phase, w.source, w.outbound, w.out,
    w.cfg, w.events, w.fresh⟩

/-! ### The phase an instruction goes to -/

/-- The phase an instruction can move a read on to (40_sequencing.md R104); every other change of phase is to IDLE. -/
def entersPhase : Instr → Option Phase
  | .start => some .scan
  | .scanB _ => some .body
  | .bodyB _ => some .norm
  | .norm => some .rslv
  | .rslv => some .csum
  | .csum => some .sigc
  | _ => none

theorem exec_phase {i : Instr} {s t : State} (h : exec i s = .next t) :
    t.phase = s.phase ∨ t.phase = .idle ∨ entersPhase i = some t.phase := by
  cases i with
  | hold | scanW | bodyW | cmdPassive | cmdRequest | frame => cases h; exact .inl rfl
  | start | norm | rslv => cases h; exact .inr (.inr rfl)
  | rsvd7 => cases h; exact .inr (.inl rfl)
  | scanT | bodyT =>
    cases h
    rcases State.countTick_cases (s.drive false true) _ _ with ⟨-, ht⟩ | ⟨-, ht⟩ <;> rw [ht]
    · exact .inl rfl
    · exact .inr (.inl rfl)
  | scanB data =>
    rcases exec_scanB_cases h with ⟨-, rfl⟩ | ⟨-, rfl⟩
    · exact .inr (.inr rfl)
    · exact .inl rfl
  | bodyB data =>
    obtain ⟨-, rfl⟩ := exec_bodyB_cases h
    cases bodyVerdict (s.cnt.toNat + 1) (lengthAfter s.buf s.len (s.cnt.toNat + 1) data) with
    | zeroLength | full => exact .inr (.inl rfl)
    | complete => exact .inr (.inr rfl)
    | more => exact .inl rfl
  | csum =>
    rcases exec_csum_cases h with ⟨-, rfl⟩ | ⟨-, rfl⟩
    · exact .inr (.inr rfl)
    · exact .inr (.inl rfl)
  | sigc => rcases exec_sigc_cases h with ⟨-, rfl⟩ | ⟨-, rfl⟩ <;> exact .inr (.inl rfl)

/-- What a clock step selects moves a read on to the next phase only. -/
theorem code_of_entersPhase_operation {s : State} {start tick : Bool} {p : Phase}
    (h : entersPhase (s.operation start tick) = some p) : (Phase.code p).toNat = (Phase.code s.phase).toNat + 1 := by
  unfold State.operation at h
  generalize s.phase = q at *
  generalize s.valid = valid at *
  cases q <;> cases start <;> cases tick <;> cases valid <;> cases h <;> rfl

/-- Settles O30: of the acts of the environment only a clock step moves the phase, and its operation moves it by one. -/
theorem phasesNeverSkip : Obligations.PhasesNeverSkip := by
  intro s t h
  rcases step_cases s t h with ⟨_, _, -, rfl⟩ | ⟨start, tick, -, hex⟩ | ⟨_, -, rfl⟩ | ⟨_, -, -, rfl⟩
  · exact .inr (.inl rfl)
  · rcases exec_phase hex with hsame | hidle | hnext
    · exact .inl (hsame.trans s.dropEvent_phase)
    · exact .inr (.inl hidle)
    · exact .inr (.inr (by simpa using code_of_entersPhase_operation hnext))
  · exact .inl s.dropEvent_phase
  · exact .inl s.dropEvent_phase

end Sys2Proof.Machine
end

section
/-! SUPPORT. How a read ends: `done`, the code and the error flag (10_state.md R33, R35), and when the store changes
(10_state.md R30 to R32). -/

namespace Sys2Proof.Machine

open Sys2Proof

/-! ### `last_err` -/

/-- An operation ends a read, with the code it shows as `result` (46_reading_store.md R151, R152), or keeps `last_err`. -/
theorem exec_operation_done {i : Instr} {s t : State} (hi : isOperation i) (h : exec i s = .next t) :
    (t.out.done = false ∧ t.lastErr = s.lastErr) ∨
      (t.out.done = true ∧ runsRead i = true ∧ t.phase = .idle ∧ t.lastErr = t.out.result) := by
  by_cases hread : runsRead i = true
  · cases exec_readOutcome i s t hread h with
    | goesOn out _ lastErr _ => exact .inl ⟨by rw [out], lastErr⟩
    | ends out phase _ => exact .inr ⟨by rw [out], hread, phase, by rw [out]⟩
  · cases i with
    | start | hold | rsvd7 => cases h; exact .inl ⟨rfl, rfl⟩
    | cmdPassive | cmdRequest | frame => cases hi
    | _ => exact absurd rfl hread

/-- Settles O33: the flag is `last_err`, which an operation keeps unless it ends the read, and then it is `result`. -/
theorem errorFlagTellsHowTheLastReadEnded : Obligations.ErrorFlagTellsHowTheLastReadEnded := by
  intro i s t hi h
  unfold State.errorFlag
  rcases exec_operation_done hi h with ⟨hdone, herr⟩ | ⟨hdone, -, -, herr⟩
  · simp [hdone, herr]
  · simp [hdone, herr, Option.isSome_iff_ne_none]

/-! ### The acts of the environment -/

theorem isOperation_operation (s : State) (start tick : Bool) : isOperation (s.operation start tick) := by
  unfold isOperation State.operation
  cases s.phase <;> cases start <;> cases tick <;> cases s.valid <;> rfl

/-- A step that is no reset runs the operation of a clock step, or changes neither the store nor `last_err`. -/
theorem step_cases_of_not_reset {s t : State} (h : step s = .next t)
    (hrst : ∀ start tick, s.nextEvent ≠ .clock true start tick) :
    (∃ start tick, exec (s.dropEvent.operation start tick) s.dropEvent = .next t) ∨
      (s.storeEq t ∧ t.lastErr = s.lastErr) := by
  rcases step_cases s t h with ⟨start, tick, he, -⟩ | ⟨start, tick, -, hex⟩ | ⟨_, -, rfl⟩ | ⟨_, -, -, rfl⟩
  · exact absurd he (hrst start tick)
  · exact .inl ⟨start, tick, hex⟩
  · exact .inr ⟨by simp [State.storeEq], by simp⟩
  · exact .inr ⟨by simp [State.storeEq], by simp⟩

/-- Settles O36: only an operation that ends its read writes `last_err`, and such an operation runs outside IDLE. -/
theorem lastErrorIsWrittenOnlyWhenAReadEnds : Obligations.LastErrorIsWrittenOnlyWhenAReadEnds := by
  intro s t h hrst hne
  rcases step_cases_of_not_reset h hrst with ⟨start, tick, hex⟩ | ⟨-, herr⟩
  · rcases exec_operation_done (isOperation_operation ..) hex with ⟨-, herr⟩ | ⟨hdone, hread, hidle, herr⟩
    · exact absurd (herr.trans s.dropEvent_lastErr) hne
    · exact ⟨s.dropEvent_phase ▸ ((runsRead_operation ..).mp hread).1, hidle, hdone, herr⟩
  · exact absurd herr hne

/-! ### The store -/

theorem phase_of_operation_eq_sigc {s : State} {start tick : Bool} (h : s.operation start tick = .sigc) :
    s.phase = .sigc := by
  unfold State.operation at h
  generalize s.phase = p at *
  generalize s.valid = valid at *
  cases p <;> cases start <;> cases tick <;> cases valid <;> cases h <;> rfl

/-- An operation that changes the store is a SIGC that commits. -/
theorem exec_storeEq_or_commit {i : Instr} {s t : State} (h : exec i s = .next t) :
    s.storeEq t ∨ (i = .sigc ∧ t = (s.drive false true).commit) := by
  by_cases hi : i = .sigc
  · subst hi
    rcases exec_sigc_cases h with ⟨-, rfl⟩ | ⟨-, rfl⟩
    · exact .inr ⟨rfl, rfl⟩
    · exact .inl ⟨rfl, rfl, rfl⟩
  · exact .inl ((exec_writesOnly h).store hi)

theorem framePort_eq_of_storeEq {s t : State} (hstore : s.storeEq t) (herr : t.lastErr = s.lastErr) :
    t.framePort = s.framePort := by
  obtain ⟨hframe, hvar, hvalid⟩ := hstore
  rw [State.framePort, hframe, hvar, hvalid, herr]
  rfl

/-- The operation of a step that changes the frame port ends a read. -/
theorem exec_done_of_framePort_ne {i : Instr} {s t : State} (hi : isOperation i) (h : exec i s = .next t)
    (hport : t.framePort ≠ s.framePort) : t.out.done = true := by
  rcases exec_storeEq_or_commit h with hstore | ⟨-, rfl⟩
  · rcases exec_operation_done hi h with ⟨-, herr⟩ | ⟨hdone, -⟩
    · exact absurd (framePort_eq_of_storeEq hstore herr) hport
    · exact hdone
  · rfl

theorem State.dropEvent_storeEq_iff (s t : State) : s.dropEvent.storeEq t ↔ s.storeEq t := by simp [State.storeEq]

@[simp] theorem State.dropEvent_framePort (s : State) : s.dropEvent.framePort = s.framePort := by
  simp [State.framePort]

/-- Settles O34: of the operations only a SIGC that commits writes the store. -/
theorem storeChangesOnlyByCommit : Obligations.StoreChangesOnlyByCommit := by
  intro s t h hrst
  rcases step_cases_of_not_reset h hrst with ⟨start, tick, hex⟩ | ⟨hstore, herr⟩
  · refine ⟨fun hne => ?_, fun hport => ?_⟩
    · rcases exec_storeEq_or_commit hex with hstore | ⟨hi, rfl⟩
      · exact absurd ((s.dropEvent_storeEq_iff _).mp hstore) hne
      · have hphase : s.phase = .sigc := by simpa using phase_of_operation_eq_sigc hi
        simp [hphase]
    · exact exec_done_of_framePort_ne (isOperation_operation ..) hex (by simpa using hport)
  · exact ⟨fun hne => absurd hstore hne, fun hport => absurd (framePort_eq_of_storeEq hstore herr) hport⟩

/-- Settles O35: a step that is no reset keeps the valid bit or, where it changes the store, sets it. -/
theorem validBitIsClearedOnlyByReset : Obligations.ValidBitIsClearedOnlyByReset := by
  intro s t hvalid h hclear
  by_contra hno
  have hchange : ¬ s.storeEq t := fun ⟨_, _, hsame⟩ => by simp [hvalid, hclear] at hsame
  obtain ⟨-, -, -, -, hset, -⟩ :=
    (storeChangesOnlyByCommit s t h fun start tick he => hno ⟨start, tick, he⟩).1 hchange
  simp [hclear] at hset

end Sys2Proof.Machine
end

section
/-! SUPPORT. The invariant read phase by phase: what holds in each phase, and that this and the facts about the store are
the invariant. -/

namespace Sys2Proof.Machine

open Sys2Proof

/-! ### What holds in each phase -/

/-- In SCAN: nothing stored yet, ticks left (10_state.md R39 (a), (e)). -/
structure Scanning (s : State) : Prop where
  cnt : s.cnt = 0
  len : s.len = 0
  zeros : ∀ a, a < 32 → s.buf.read a = 0x00
  inBudget : s.tmr < s.cfg.tScan

/-- The signature stands in the window and at the head of the buffer (10_state.md R23, R39 (b), (c)). -/
structure Locked (s : State) : Prop where
  win0 : s.win0 = 0x42
  win1 : s.win1 = 0x4D
  byte0 : s.buf.read 0 = 0x42
  byte1 : s.buf.read 1 = 0x4D

/-- The first `cnt` bytes of a frame as they came, zeros beyond, the length latched from the fourth on. -/
structure PartRead (s : State) : Prop extends Locked s where
  zeros : ∀ a, s.cnt.toNat ≤ a → a < 32 → s.buf.read a = 0x00
  latched : 4 ≤ s.cnt.toNat → s.len = assemble (s.buf.read 2) (s.buf.read 3)

/-- In BODY: part of a frame, ticks left (10_state.md R39 (b)). -/
structure Reading (s : State) : Prop extends PartRead s where
  two_le : 2 ≤ s.cnt.toNat
  le_31 : s.cnt.toNat ≤ 31
  inBudget : s.tmr < s.cfg.tBody
  incomplete : 4 ≤ s.cnt.toNat → 1 ≤ s.len.toNat ∧ s.cnt.toNat < s.len.toNat + 4

/-- In the post phases: a whole frame of an accepted length (10_state.md R39 (c)). -/
structure Complete (s : State) : Prop extends Locked s where
  one_le : 1 ≤ s.len.toNat
  le_28 : s.len.toNat ≤ 28
  cnt : s.cnt.toNat = s.len.toNat + 4

/-- In NORM: the frame in wire order (42_frame_reader.md R125). -/
structure WireOrder (s : State) : Prop extends Complete s where
  length : s.len = assemble (s.buf.read 2) (s.buf.read 3)
  zeros : ∀ a, s.len.toNat + 4 ≤ a → a < 32 → s.buf.read a = 0x00

/-- From RSLV on: the pairs exchanged (10_state.md R39 (d), 43_byte_order_normalizer.md R132). -/
structure Normalized (s : State) : Prop extends Complete s where
  length : s.buf.read16 2 = s.len
  zeros : lenEven s.len = true → ∀ a, s.len.toNat + 4 ≤ a → a < 32 → s.buf.read a = 0x00

/-- From CSUM on: the variant is the length's (44_variant_resolver.md R135). -/
structure Resolved (s : State) : Prop extends Normalized s where
  variant : s.var = .extended ↔ s.len = 28

/-- In SIGC: the checksum has passed (45_checksum_validator.md R140). -/
structure Summed (s : State) : Prop extends Resolved s where
  sum : computedSum s.buf s.len = receivedSum s.buf s.len

/-- What the invariant says of the working registers in the phase `s` is in. -/
def State.phaseFacts (s : State) : Prop :=
  match s.phase with
  | .idle => True
  | .scan => Scanning s
  | .body => Reading s
  | .norm => WireOrder s
  | .rslv => Normalized s
  | .csum => Resolved s
  | .sigc => Summed s
  | .rsvd7 => False

theorem Scanning.phaseFacts {s : State} (h : Scanning s) (hp : s.phase = .scan) : s.phaseFacts := by
  simpa only [State.phaseFacts, hp] using h

theorem Reading.phaseFacts {s : State} (h : Reading s) (hp : s.phase = .body) : s.phaseFacts := by
  simpa only [State.phaseFacts, hp] using h

/-! ### The facts a group of phases shares -/

section
variable {s : State} (h : s.phaseFacts)
include h

theorem State.phaseFacts.scanning (hp : s.phase = .scan) : Scanning s := by
  simpa only [State.phaseFacts, hp] using h

theorem State.phaseFacts.reading (hp : s.phase = .body) : Reading s := by
  simpa only [State.phaseFacts, hp] using h

theorem State.phaseFacts.wireOrder (hp : s.phase = .norm) : WireOrder s := by
  simpa only [State.phaseFacts, hp] using h

theorem State.phaseFacts.summed (hp : s.phase = .sigc) : Summed s := by
  simpa only [State.phaseFacts, hp] using h

theorem State.phaseFacts.resolved (hp : s.phase = .csum ∨ s.phase = .sigc) : Resolved s := by
  rcases hp with hp | hp
  · simpa only [State.phaseFacts, hp] using h
  · exact (h.summed hp).toResolved

theorem State.phaseFacts.normalized (hp : s.phase = .rslv ∨ s.phase = .csum ∨ s.phase = .sigc) : Normalized s := by
  rcases hp with hp | hp
  · simpa only [State.phaseFacts, hp] using h
  · exact (h.resolved hp).toNormalized

theorem State.phaseFacts.complete (hp : s.phase.isPost = true) : Complete s := by
  have hpost : s.phase = .norm ∨ s.phase = .rslv ∨ s.phase = .csum ∨ s.phase = .sigc := by
    simpa [Phase.isPost, or_assoc] using hp
  rcases hpost with hp | hp
  · exact (h.wireOrder hp).toComplete
  · exact (h.normalized hp).toComplete

theorem State.phaseFacts.locked (hp : s.phase = .body ∨ s.phase.isPost = true) : Locked s := by
  rcases hp with hp | hp
  · exact (h.reading hp).toLocked
  · exact (h.complete hp).toLocked

theorem State.phaseFacts.legal : s.phaseLegal := fun hp => by
  simp only [State.phaseFacts, hp] at h

end

/-! ### The invariant -/

/-- What the invariant says of the stored frame (10_state.md R39 (f), 46_reading_store.md R155). -/
structure StoreSound (s : State) : Prop where
  validated : s.storeValidated
  tailZero : s.storeTailZero

/-- R39 (g) holds of every state: the reserved codes cannot be written (30_encoding.md R80). -/
theorem State.errorLegal_all (s : State) : s.errorLegal := by
  unfold State.errorLegal
  rcases s.lastErr with _ | k
  · decide
  · cases k <;> decide

/-- The invariant, from the facts of the phase and those about store, memories and budgets. -/
theorem Invariant.of_phaseFacts {s : State} (hstore : StoreSound s) (hmem : s.memoriesCanonical) (hcfg : s.cfg.wf)
    (h : s.phaseFacts) : Invariant s where
  facts :=
    { scanEmpty := fun hp => ⟨(h.scanning hp).cnt, (h.scanning hp).len, (h.scanning hp).zeros⟩
      bodyProgress := fun hp => by
        have r := h.reading hp
        exact ⟨r.two_le, r.le_31, r.byte0, r.byte1, r.zeros, r.inBudget, fun h4 => ⟨r.latched h4, r.incomplete h4⟩⟩
      postComplete := fun hp => by
        have c := h.complete hp
        exact ⟨c.one_le, c.le_28, c.cnt, c.byte0, c.byte1⟩
      lengthNormalized := fun hp => (h.normalized hp).length
      scanInBudget := fun hp => (h.scanning hp).inBudget
      storeValidated := hstore.validated
      errorLegal := s.errorLegal_all }
  windowLocked := fun hp => ⟨(h.locked hp).win0, (h.locked hp).win1⟩
  wireComplete := fun hp => ⟨(h.wireOrder hp).length, (h.wireOrder hp).zeros⟩
  tailZero := fun hp => (h.normalized hp).zeros
  variantResolved := fun hp => (h.resolved hp).variant
  sumMatches := fun hp => (h.summed hp).sum
  storeTailZero := hstore.tailZero
  memoriesCanonical := hmem
  phaseLegal := h.legal
  cfgLegal := hcfg

section
variable {s : State} (h : Invariant s)
include h

theorem Invariant.storeSound : StoreSound s := ⟨h.facts.storeValidated, h.storeTailZero⟩

theorem Invariant.scanning (hp : s.phase = .scan) : Scanning s := by
  obtain ⟨hcnt, hlen, hzeros⟩ := h.facts.scanEmpty hp
  exact ⟨hcnt, hlen, hzeros, h.facts.scanInBudget hp⟩

theorem Invariant.reading (hp : s.phase = .body) : Reading s := by
  obtain ⟨h2, h31, hb0, hb1, hzeros, htmr, hlen⟩ := h.facts.bodyProgress hp
  obtain ⟨hw0, hw1⟩ := h.windowLocked (.inl hp)
  exact ⟨⟨⟨hw0, hw1, hb0, hb1⟩, hzeros, fun h4 => (hlen h4).1⟩, h2, h31, htmr, fun h4 => (hlen h4).2⟩

theorem Invariant.complete (hp : s.phase.isPost = true) : Complete s := by
  obtain ⟨h1, h28, hcnt, hb0, hb1⟩ := h.facts.postComplete hp
  obtain ⟨hw0, hw1⟩ := h.windowLocked (.inr hp)
  exact ⟨⟨hw0, hw1, hb0, hb1⟩, h1, h28, hcnt⟩

theorem Invariant.wireOrder (hp : s.phase = .norm) : WireOrder s := by
  obtain ⟨hlen, hzeros⟩ := h.wireComplete hp
  exact ⟨h.complete (by rw [hp]; rfl), hlen, hzeros⟩

theorem Invariant.normalized (hp : s.phase = .rslv ∨ s.phase = .csum ∨ s.phase = .sigc) : Normalized s :=
  ⟨h.complete (by rcases hp with hp | hp | hp <;> rw [hp] <;> rfl), h.facts.lengthNormalized hp, h.tailZero hp⟩

theorem Invariant.resolved (hp : s.phase = .csum ∨ s.phase = .sigc) : Resolved s :=
  ⟨h.normalized (.inr hp), h.variantResolved hp⟩

theorem Invariant.summed (hp : s.phase = .sigc) : Summed s := ⟨h.resolved (.inr hp), h.sumMatches hp⟩

theorem Invariant.phaseFacts : s.phaseFacts := by
  unfold State.phaseFacts
  split
  · trivial
  · exact h.scanning ‹_›
  · exact h.reading ‹_›
  · exact h.wireOrder ‹_›
  · exact h.normalized (.inl ‹_›)
  · exact h.resolved (.inl ‹_›)
  · exact h.summed ‹_›
  · exact h.phaseLegal ‹_›

/-- The invariant speaks of the registers and the budgets only. -/
theorem Invariant.withEnvironment (source : List Byte) (outbound : List Byte) (events : List Event) (fresh : Nat)
    (out : Out) :
    Invariant { s with source := source, outbound := outbound, events := events, fresh := fresh, out := out } where
  facts :=
    { scanEmpty := h.facts.scanEmpty
      bodyProgress := h.facts.bodyProgress
      postComplete := h.facts.postComplete
      lengthNormalized := h.facts.lengthNormalized
      scanInBudget := h.facts.scanInBudget
      storeValidated := h.facts.storeValidated
      errorLegal := h.facts.errorLegal }
  windowLocked := h.windowLocked
  wireComplete := h.wireComplete
  tailZero := h.tailZero
  variantResolved := h.variantResolved
  sumMatches := h.sumMatches
  storeTailZero := h.storeTailZero
  memoriesCanonical := h.memoriesCanonical
  phaseLegal := h.phaseLegal
  cfgLegal := h.cfgLegal

end

end Sys2Proof.Machine
end

section
/-! SUPPORT. Every step keeps the invariant: each operation takes the facts of its phase to those of the next, then the
statements. -/

namespace Sys2Proof.Machine

open Sys2Proof

/-! ### SCAN and BODY -/

section
variable {s : State} {data : Byte}

theorem Scanning.countTick (h : Scanning s) (hp : s.phase = .scan) (k : ErrKind) :
    ((s.drive false true).countTick s.cfg.tScan k).phaseFacts := by
  rcases State.countTick_cases (s.drive false true) s.cfg.tScan k with ⟨hlt, ht⟩ | ⟨-, ht⟩ <;> rw [ht]
  · exact Scanning.phaseFacts ⟨h.cnt, h.len, h.zeros, hlt⟩ hp
  · trivial

theorem Scanning.scanned (h : Scanning s) : Scanning (s.scanned data) := ⟨h.cnt, h.len, h.zeros, h.inBudget⟩

/-- A match starts a frame of two bytes (41_frame_scanner.md R110). -/
theorem Scanning.lockFrame (h : Scanning s) (hcfg : s.cfg.wf) (hseen : s.win1 = 0x42 ∧ data = 0x4D) :
    Reading (s.scanned data).lockFrame where
  win0 := hseen.1
  win1 := hseen.2
  byte0 := rfl
  byte1 := rfl
  zeros a h2 h32 := by
    have h2 : 2 ≤ a := h2
    rw [State.lockFrame_buf, Memory.read_write_other _ _ _ _ h32 (by omega),
      Memory.read_write_other _ _ _ _ h32 (by omega)]
    exact h.zeros a h32
  latched h4 := absurd (show 4 ≤ 2 from h4) (by decide)
  two_le := Nat.le_refl 2
  le_31 := show 2 ≤ 31 by decide
  inBudget := hcfg.2
  incomplete h4 := absurd (show 4 ≤ 2 from h4) (by decide)

theorem Reading.countTick (h : Reading s) (hp : s.phase = .body) (k : ErrKind) :
    ((s.drive false true).countTick s.cfg.tBody k).phaseFacts := by
  rcases State.countTick_cases (s.drive false true) s.cfg.tBody k with ⟨hlt, ht⟩ | ⟨-, ht⟩ <;> rw [ht]
  · exact Reading.phaseFacts
      ⟨⟨⟨h.win0, h.win1, h.byte0, h.byte1⟩, h.zeros, h.latched⟩, h.two_le, h.le_31, hlt, h.incomplete⟩ hp
  · trivial

@[simp] theorem State.appended_buf : (s.appended data).buf = s.buf.write s.cnt.toNat data := rfl

@[simp] theorem State.appended_len :
    (s.appended data).len = lengthAfter s.buf s.len (s.cnt.toNat + 1) data := rfl

theorem State.appended_cnt_toNat (h31 : s.cnt.toNat ≤ 31) : (s.appended data).cnt.toNat = s.cnt.toNat + 1 := by
  simp only [State.appended, State.storeByte_cnt, State.drive_cnt, State.takeByte_cnt, BitVec.toNat_ofNat]
  omega

/-- A byte of the body goes behind those that came before it (42_frame_reader.md R120). -/
theorem Reading.appended (h : Reading s) : PartRead (s.appended data) where
  win0 := h.win0
  win1 := h.win1
  byte0 := by
    rw [State.appended_buf, Memory.read_write_other _ _ _ _ (by decide) (by have := h.two_le; omega)]
    exact h.byte0
  byte1 := by
    rw [State.appended_buf, Memory.read_write_other _ _ _ _ (by decide) (by have := h.two_le; omega)]
    exact h.byte1
  zeros a hcnt h32 := by
    rw [State.appended_cnt_toNat h.le_31] at hcnt
    rw [State.appended_buf, Memory.read_write_other _ _ _ _ h32 (by omega)]
    exact h.zeros a (by omega) h32
  latched h4 := by
    rw [State.appended_cnt_toNat h.le_31] at h4
    rw [State.appended_len, State.appended_buf, Memory.read_write _ _ _ _ (by decide),
      Memory.read_write _ _ _ _ (by decide)]
    by_cases h3 : s.cnt.toNat = 3
    · simp [lengthAfter, h3]
    · rw [lengthAfter, if_neg (by omega), if_neg (by omega), if_neg (by omega)]
      exact h.latched (by omega)

/-- How the length stands to the count after a byte that does not show length 0 (42_frame_reader.md R120). -/
theorem Reading.appended_len (h : Reading s) (h4 : 4 ≤ s.cnt.toNat + 1)
    (hne : ¬(s.cnt.toNat + 1 = 4 ∧ (s.appended data).len = 0)) :
    1 ≤ (s.appended data).len.toNat ∧ s.cnt.toNat + 1 ≤ (s.appended data).len.toNat + 4 := by
  by_cases h3 : s.cnt.toNat = 3
  · have hpos : (s.appended data).len.toNat ≠ 0 := fun h0 => hne ⟨by omega, BitVec.eq_of_toNat_eq h0⟩
    omega
  · have hlen : (s.appended data).len = s.len := by rw [State.appended_len, lengthAfter, if_neg (by omega)]
    have hold := h.incomplete (by omega)
    rw [hlen]
    omega

/-- BODY.B goes on with a longer part of the frame, with the whole of it, or ends the read. -/
theorem Reading.followVerdict (h : Reading s) (hp : s.phase = .body) :
    ((s.appended data).followVerdict (bodyVerdict (s.cnt.toNat + 1) (s.appended data).len)).phaseFacts := by
  have hcnt : (s.appended data).cnt.toNat = s.cnt.toNat + 1 := State.appended_cnt_toNat h.le_31
  have hpre : PartRead (s.appended data) := h.appended
  have h2 := h.two_le
  have h31 := h.le_31
  rcases bodyVerdict_cases (s.cnt.toNat + 1) (s.appended data).len with
    ⟨hv, -⟩ | ⟨hv, hne, h4, hend⟩ | ⟨hv, -⟩ | ⟨hv, hne, hmore, h32⟩ <;> rw [hv]
  · trivial
  · have hlen := h.appended_len h4 hne
    refine WireOrder.mk ⟨⟨hpre.win0, hpre.win1, hpre.byte0, hpre.byte1⟩, hlen.1, ?_, hcnt.trans hend⟩
      (hpre.latched (hcnt.symm ▸ h4)) fun a ha => hpre.zeros a ?_
    · show (s.appended data).len.toNat ≤ 28
      omega
    · rw [hcnt, hend]
      exact ha
  · trivial
  · have hphase : (s.appended data).phase = .body := hp
    refine (Reading.mk hpre (by omega) (by omega) h.inBudget fun h4 => ?_).phaseFacts hphase
    rw [hcnt] at h4 ⊢
    have hlen := h.appended_len h4 hne
    omega

end

/-! ### The post stages -/

/-- Zeros from an even offset on stay zeros under the exchange of pairs (43_byte_order_normalizer.md R132). -/
theorem Memory.read_swapPairs_eq_zero {m : Memory} {n : Nat} (hn : n % 2 = 0)
    (hzeros : ∀ a, n ≤ a → a < 32 → m.read a = 0x00) (a : Nat) (ha : n ≤ a) (h32 : a < 32) :
    m.swapPairs.read a = 0x00 := by
  rw [Memory.read_swapPairs _ _ h32]
  refine hzeros _ ?_ (swapOffset_lt a h32)
  unfold swapOffset
  split
  · exact ha
  · split <;> omega

theorem Memory.read16_swapPairs_two (m : Memory) : m.swapPairs.read16 2 = assemble (m.read 2) (m.read 3) := by
  rw [Memory.read16, Memory.read_swapPairs _ _ (by decide), Memory.read_swapPairs _ _ (by decide)]
  rfl

section
variable {s : State}

theorem WireOrder.norm (h : WireOrder s) :
    Normalized (({ s with buf := s.buf.swapPairs, phase := .rslv }).drive false true) where
  win0 := h.win0
  win1 := h.win1
  byte0 := (Memory.read_swapPairs _ 0 (by decide)).trans h.byte0
  byte1 := (Memory.read_swapPairs _ 1 (by decide)).trans h.byte1
  one_le := h.one_le
  le_28 := h.le_28
  cnt := h.cnt
  length := s.buf.read16_swapPairs_two.trans h.length.symm
  zeros heven := by
    have heven : s.len.toNat % 2 = 0 := beq_iff_eq.mp heven
    exact Memory.read_swapPairs_eq_zero (by show (s.len.toNat + 4) % 2 = 0; omega) h.zeros

theorem Normalized.rslv (h : Normalized s) :
    Resolved (({ s with var := variantOf (s.buf.read16 2), phase := .csum }).drive false true) where
  win0 := h.win0
  win1 := h.win1
  byte0 := h.byte0
  byte1 := h.byte1
  one_le := h.one_le
  le_28 := h.le_28
  cnt := h.cnt
  length := h.length
  zeros := h.zeros
  variant := by
    show variantOf (s.buf.read16 2) = .extended ↔ s.len = 28
    rw [h.length]
    exact variantOf_eq_extended_iff s.len

theorem Resolved.csum (h : Resolved s) (hsum : computedSum s.buf s.len = receivedSum s.buf s.len) :
    Summed { s.summed with phase := .sigc } where
  win0 := h.win0
  win1 := h.win1
  byte0 := h.byte0
  byte1 := h.byte1
  one_le := h.one_le
  le_28 := h.le_28
  cnt := h.cnt
  length := h.length
  zeros := h.zeros
  variant := h.variant
  sum := hsum

/-- COMMIT stores a frame that has passed every test (46_reading_store.md R151). -/
theorem Summed.commit (h : Summed s) : StoreSound (s.drive false true).commit where
  validated _ := by
    show s.buf.read 0 = 0x42 ∧ s.buf.read 1 = 0x4D ∧ 1 ≤ (s.buf.read16 2).toNat ∧ (s.buf.read16 2).toNat ≤ 28 ∧
      (s.var = .extended ↔ s.buf.read16 2 = 28) ∧
      s.buf.sumTo ((s.buf.read16 2).toNat + 2) = s.buf.read16 ((s.buf.read16 2).toNat + 2)
    have hsum := h.sum
    rw [computedSum_eq, receivedSum_eq] at hsum
    rw [h.length]
    exact ⟨h.byte0, h.byte1, h.one_le, h.le_28, h.variant, hsum⟩
  tailZero _ := by
    show lenEven (s.buf.read16 2) = true → ∀ a, (s.buf.read16 2).toNat + 4 ≤ a → a < 32 → s.buf.read a = 0x00
    rw [h.length]
    exact h.zeros

end

/-! ### The operation of a clock step -/

section
variable {s t : State}

theorem StoreSound.of_storeEq (h : StoreSound s) (heq : s.storeEq t) : StoreSound t := by
  obtain ⟨hframe, hvar, hvalid⟩ := heq
  obtain ⟨hvalidated, htail⟩ := h
  constructor
  · rwa [State.storeValidated, hframe, hvar, hvalid]
  · rwa [State.storeTailZero, hframe, hvalid]

/-- Every instruction leaves both memories in their canonical form (log 6). -/
theorem exec_memoriesCanonical {i : Instr} (h : exec i s = .next t) (hmem : s.memoriesCanonical) :
    t.memoriesCanonical := by
  obtain ⟨hbuf, hframe⟩ := hmem
  have w := exec_writesOnly h
  constructor
  · cases i with
    | start => cases h; exact Memory.clear_wf
    | norm => cases h; exact Memory.swapPairs_wf _
    | scanB =>
      rcases exec_scanB_cases h with ⟨-, rfl⟩ | ⟨-, rfl⟩
      · rw [State.lockFrame_buf]
        exact Memory.write_wf ..
      · exact hbuf
    | bodyB data =>
      obtain ⟨-, rfl⟩ := exec_bodyB_cases h
      cases bodyVerdict (s.cnt.toNat + 1) (lengthAfter s.buf s.len (s.cnt.toNat + 1) data) <;> exact Memory.write_wf ..
    | _ => rw [w.buf nofun nofun nofun nofun]; exact hbuf
  · rcases exec_storeEq_or_commit h with ⟨heq, -⟩ | ⟨-, rfl⟩
    · rwa [heq]
    · exact hbuf

/-- The operation of each phase leaves what the invariant says of the phase it goes to. -/
theorem Invariant.phaseFacts_operation {start tick : Bool} (h : Invariant s)
    (hex : exec (s.operation start tick) s = .next t) : t.phaseFacts := by
  have hpoll : ∀ ready busy, (s.drive ready busy).phaseFacts := fun _ _ => (h.withEnvironment _ _ _ _ _).phaseFacts
  rw [State.operation] at hex
  cases hp : s.phase <;> rw [hp] at hex
  case idle =>
    cases start with
    | true => cases hex; exact ⟨rfl, rfl, fun _ _ => rfl, h.cfgLegal.1⟩
    | false => cases hex; exact hpoll false false
  case scan =>
    have hscan := h.scanning hp
    cases tick with
    | true => cases hex; exact hscan.countTick hp _
    | false =>
      cases hv : s.valid <;> rw [hv] at hex
      · cases hex; exact hpoll true true
      · rcases exec_scanB_cases hex with ⟨hseen, rfl⟩ | ⟨-, rfl⟩
        · exact hscan.lockFrame h.cfgLegal hseen
        · exact hscan.scanned.phaseFacts hp
  case body =>
    have hread := h.reading hp
    cases tick with
    | true => cases hex; exact hread.countTick hp _
    | false =>
      cases hv : s.valid <;> rw [hv] at hex
      · cases hex; exact hpoll true true
      · obtain ⟨-, rfl⟩ := exec_bodyB_cases hex
        exact hread.followVerdict hp
  case norm => cases hex; exact (h.wireOrder hp).norm
  case rslv => cases hex; exact (h.normalized (.inl hp)).rslv
  case csum =>
    rcases exec_csum_cases hex with ⟨hsum, rfl⟩ | ⟨-, rfl⟩
    · exact (h.resolved (.inl hp)).csum hsum
    · trivial
  case sigc => rcases exec_sigc_cases hex with ⟨-, rfl⟩ | ⟨-, rfl⟩ <;> trivial
  case rsvd7 => exact absurd hp h.phaseLegal

theorem Invariant.exec_operation {start tick : Bool} (h : Invariant s)
    (hex : exec (s.operation start tick) s = .next t) : Invariant t := by
  have w := exec_writesOnly hex
  refine .of_phaseFacts ?_ (exec_memoriesCanonical hex h.memoriesCanonical) (w.cfg ▸ h.cfgLegal)
    (h.phaseFacts_operation hex)
  rcases exec_storeEq_or_commit hex with heq | ⟨hi, rfl⟩
  · exact h.storeSound.of_storeEq heq
  · exact (h.summed (phase_of_operation_eq_sigc hi)).commit

end

/-! ### The acts of the environment, and reset -/

theorem State.dropEvent_eq (s : State) :
    s.dropEvent = { s with events := s.dropEvent.events, fresh := s.dropEvent.fresh } := by
  unfold State.dropEvent
  split <;> rfl

theorem Invariant.dropEvent {s : State} (h : Invariant s) : Invariant s.dropEvent := by
  rw [s.dropEvent_eq]
  exact h.withEnvironment _ _ _ _ _

/-- The registers of State.reset, with legal budgets, meet the invariant in any environment. -/
theorem invariant_reset (cfg : Cfg) (source outbound : List Byte) (events : List Event) (fresh : Nat) (out : Out)
    (hcfg : cfg.wf) :
    Invariant { State.reset with
      cfg := cfg, source := source, outbound := outbound, events := events, fresh := fresh, out := out } :=
  .of_phaseFacts ⟨nofun, nofun⟩ ⟨rfl, rfl⟩ hcfg trivial

/-- Settles O40: the acts of the environment touch no register, a reset clears them all, and an operation takes the facts
of its phase to those of the next. -/
theorem everyStepKeepsTheInvariant : Obligations.EveryStepKeepsTheInvariant := by
  intro s t h hstep
  rcases step_cases s t hstep with ⟨_, _, -, rfl⟩ | ⟨_, _, -, hex⟩ | ⟨_, -, rfl⟩ | ⟨_, -, -, rfl⟩
  · exact invariant_reset _ _ _ _ _ _ h.dropEvent.cfgLegal
  · exact h.dropEvent.exec_operation hex
  · exact h.dropEvent.withEnvironment _ _ _ _ _
  · exact h.dropEvent.withEnvironment _ _ _ _ _

/-! ### From reset on -/

/-- Settles O18. -/
theorem resetStateHoldsZero : Obligations.ResetStateHoldsZero :=
  ⟨rfl, rfl, rfl, fun _ _ => rfl, rfl, rfl, rfl, rfl, rfl, fun _ _ => rfl, rfl, rfl, rfl⟩

/-- Settles O41: an initial state has the registers of State.reset. -/
theorem theInvariantHoldsAfterReset : Obligations.TheInvariantHoldsAfterReset := by
  refine ⟨⟨⟨Nat.le_add_left .., Nat.le_add_left ..⟩, rfl⟩, fun s ⟨hcfg, hs⟩ => ?_⟩
  rw [hs]
  exact invariant_reset _ _ _ _ _ _ hcfg

theorem Reachable.invariant {s : State} (h : Reachable s) : Invariant s := by
  induction h with
  | initial s hs => exact theInvariantHoldsAfterReset.2 s hs
  | step s t _ ht ih => exact everyStepKeepsTheInvariant s t ih ht

/-- Settles O42: R39 is part of the invariant, which holds at reset and is kept by every step. -/
theorem reachableStatesSatisfyR39 : Obligations.ReachableStatesSatisfyR39 := fun _ h => h.invariant.facts

end Sys2Proof.Machine
end

section
/-! SUPPORT. Where an instruction stops (20_memory.md R59; log 11): the two faults and nothing else, and that the invariant
keeps a clock step clear of both. -/

namespace Sys2Proof.Machine

open Sys2Proof

/-! ### The two faults -/

section
variable {s : State}

theorem exec_bodyB_fault {data : Byte} (h : 32 ≤ s.cnt.toNat) :
    exec (.bodyB data) s = .fault (.bufferOffset s.cnt.toNat) :=
  if_neg (Nat.not_lt.mpr h)

theorem exec_csum_fault (h : 29 ≤ s.len.toNat) : exec .csum s = .fault (.bufferOffset (s.len.toNat + 3)) := by
  have hcap : ¬ s.len.toNat + 2 + 1 < bufCap := by rw [bufCap]; omega
  rw [exec, execCsum, ckOffset_eq, if_neg hcap]

/-- An instruction goes on, or it addresses an offset above 31: BODY.B its count, CSUM the end of its checksum field. -/
theorem exec_goesOn_or_fault (i : Instr) (s : State) :
    goesOn (exec i s) ∨
      (∃ data, i = .bodyB data ∧ 32 ≤ s.cnt.toNat ∧ exec i s = .fault (.bufferOffset s.cnt.toNat)) ∨
      (i = .csum ∧ 29 ≤ s.len.toNat ∧ exec i s = .fault (.bufferOffset (s.len.toNat + 3))) := by
  cases i with
  | bodyB data =>
    rcases Nat.lt_or_ge s.cnt.toNat 32 with hlt | hge
    · exact .inl ⟨_, if_pos hlt⟩
    · exact .inr (.inl ⟨data, rfl, hge, exec_bodyB_fault hge⟩)
  | csum =>
    rcases Nat.lt_or_ge s.len.toNat 29 with hlt | hge
    · have hcap : ckOffset s.len + 1 < bufCap := by rw [ckOffset_eq, bufCap]; omega
      exact .inl ⟨_, if_pos hcap⟩
    · exact .inr (.inr ⟨rfl, hge, exec_csum_fault hge⟩)
  | _ => exact .inl ⟨_, rfl⟩

end

/-- Settles O16: an instruction goes on or is one of the two that name an offset above 31. -/
theorem onlyOffsetsAbove31Fault : Obligations.OnlyOffsetsAbove31Fault := by
  refine ⟨fun s data h => exec_bodyB_fault h, fun s h => exec_csum_fault h, fun i s f h => ?_, fun i s r h => ?_⟩
  · rcases exec_goesOn_or_fault i s with ⟨t, ht⟩ | ⟨data, hi, hcnt, -⟩ | ⟨hi, hlen, -⟩
    · cases h.symm.trans ht
    · exact .inl ⟨⟨data, hi⟩, hcnt⟩
    · exact .inr ⟨hi, hlen⟩
  · rcases exec_goesOn_or_fault i s with ⟨t, ht⟩ | ⟨_, -, -, hf⟩ | ⟨-, -, hf⟩
    · cases h.symm.trans ht
    · cases h.symm.trans hf
    · cases h.symm.trans hf

/-! ### The phase of an operation -/

/-- The phase in whose rows of the dispatch table an operation stands (30_encoding.md R77). -/
def rowPhase : Instr → Option Phase
  | .start | .hold => some .idle
  | .scanT | .scanB _ | .scanW => some .scan
  | .bodyT | .bodyB _ | .bodyW => some .body
  | .norm => some .norm
  | .rslv => some .rslv
  | .csum => some .csum
  | .sigc => some .sigc
  | .rsvd7 => some .rsvd7
  | .cmdPassive | .cmdRequest | .frame _ _ => none

theorem rowPhase_operation (s : State) (start tick : Bool) : rowPhase (s.operation start tick) = some s.phase := by
  unfold State.operation
  cases s.phase <;> cases start <;> cases tick <;> cases s.valid <;> rfl

/-- A clock step selects an instruction in its own phase only. -/
theorem phase_of_operation_eq {s : State} {start tick : Bool} {i : Instr} {p : Phase}
    (hi : s.operation start tick = i) (hrow : rowPhase i = some p) : s.phase = p := by
  rw [← hi, rowPhase_operation] at hrow
  exact Option.some.inj hrow

/-! ### The clock steps of the invariant -/

/-- In BODY the count is at most 31, in CSUM the length at most 28 (10_state.md R39 (b), (c)), so neither fault arises. -/
theorem Invariant.goesOn_operation {s : State} (h : Invariant s) (start tick : Bool) :
    goesOn (exec (s.operation start tick) s) := by
  rcases exec_goesOn_or_fault (s.operation start tick) s with hgo | ⟨data, hi, hcnt, -⟩ | ⟨hi, hlen, -⟩
  · exact hgo
  · have hread := h.reading (phase_of_operation_eq hi rfl)
    exact absurd hread.le_31 (Nat.not_le.mpr hcnt)
  · have hsum := h.resolved (.inl (phase_of_operation_eq hi rfl))
    exact absurd hsum.le_28 (Nat.not_le.mpr hlen)

/-- Settles O43: a reset always goes on, an operation by the bounds of its phase; RSVD7 stands in a phase the invariant
rules out. -/
theorem clockStepsGoOnUnderTheInvariant : Obligations.ClockStepsGoOnUnderTheInvariant := by
  intro s rst start tick h he
  refine ⟨?_, fun hi => h.phaseLegal (phase_of_operation_eq hi rfl)⟩
  rw [step, he]
  cases rst with
  | true => exact ⟨_, rfl⟩
  | false =>
    rw [perform, clockStep_operation]
    exact h.dropEvent.goesOn_operation start tick

end Sys2Proof.Machine
end

section
/-! SUPPORT. The memories and the Byte Source under a step (20_memory.md R50, R51, R61), and the 16-bit reads of the
normalized buffer (20_memory.md R54, R55). -/

namespace Sys2Proof.Machine

open Sys2Proof

/-! ### The canonical form -/

@[simp] theorem State.dropEvent_memoriesCanonical (s : State) :
    s.dropEvent.memoriesCanonical ↔ s.memoriesCanonical := by
  simp [State.memoriesCanonical]

/-- Settles O39: a reset clears both memories, an operation keeps the form, the other acts write neither. -/
theorem memoriesStayCanonical : Obligations.MemoriesStayCanonical := by
  intro s t hmem hstep
  have hdrop : s.dropEvent.memoriesCanonical := s.dropEvent_memoriesCanonical.mpr hmem
  rcases step_cases s t hstep with ⟨_, _, -, rfl⟩ | ⟨_, _, -, hex⟩ | ⟨_, -, rfl⟩ | ⟨_, -, -, rfl⟩
  · exact ⟨Memory.clear_wf, Memory.clear_wf⟩
  · exact exec_memoriesCanonical hex hdrop
  · exact hdrop
  · exact hdrop

/-! ### The Byte Source -/

theorem State.source_eq_cons_of_valid {s : State} (h : s.valid = true) : ∃ data, s.source = data :: s.source.tail := by
  cases hs : s.source with
  | nil => simp [State.valid, hs] at h
  | cons data rest => exact ⟨data, rfl⟩

/-- A clock step leaves the Byte Source, or takes its head, in a wait phase without tick and reset (00_scope.md R10). -/
theorem source_of_clock_step {s t : State} {rst start tick : Bool} (he : s.nextEvent = .clock rst start tick)
    (hstep : step s = .next t) :
    t.source = s.source ∨
      (∃ data, s.source = data :: t.source) ∧ (s.phase = .scan ∨ s.phase = .body) ∧ tick = false ∧ rst = false := by
  obtain ⟨hready, -, -, -, -, -, -, hsource⟩ := outputsFollowThePhase s t rst start tick he hstep
  by_cases htake : s.valid = true ∧ t.out.ready = true
  · rw [if_pos htake] at hsource
    exact .inr ⟨hsource ▸ State.source_eq_cons_of_valid htake.1, hready.mp htake.2⟩
  · rw [if_neg htake] at hsource
    exact .inl hsource

/-- Settles O37: a clock step leaves the stream or takes its head, an arrival appends, a command sent leaves it. -/
theorem byteSourceIsFirstInFirstOut : Obligations.ByteSourceIsFirstInFirstOut := by
  intro s t hstep
  cases he : s.nextEvent with
  | clock rst start tick =>
    rcases source_of_clock_step he hstep with hsame | ⟨⟨data, hdata⟩, hwait, rfl, rfl⟩
    · exact .inl hsame
    · exact .inr (.inl ⟨data, hdata, hwait, start, rfl⟩)
  | inbound bytes =>
    rw [step, he, perform, inboundStep_eq] at hstep
    cases hstep
    exact .inr (.inr ⟨bytes, rfl, by simp⟩)
  | outbound bytes =>
    rw [step, he] at hstep
    obtain ⟨-, rfl⟩ := outboundStep_next _ _ _ hstep
    exact .inl (by simp)

/-! ### 16-bit reads of the normalized buffer -/

section
variable (m : Memory) {a : Nat}

/-- The first byte of a pair after NORM is the second before it (43_byte_order_normalizer.md R130). -/
theorem Memory.read_swapPairs_even (h2 : 2 ≤ a) (h32 : a < 32) (heven : a % 2 = 0) :
    m.swapPairs.read a = m.read (a + 1) := by
  rw [Memory.read_swapPairs _ _ h32, swapOffset, if_neg (by omega), if_pos heven]

/-- The second byte of a pair after NORM is the first before it (43_byte_order_normalizer.md R130). -/
theorem Memory.read_swapPairs_odd (h3 : 3 ≤ a) (h32 : a < 32) (hodd : a % 2 = 1) :
    m.swapPairs.read a = m.read (a - 1) := by
  rw [Memory.read_swapPairs _ _ h32, swapOffset, if_neg (by omega), if_neg (by omega)]

/-- At an even offset: the two bytes of one pair, in the order of the wire (20_memory.md R54). -/
theorem Memory.read16_swapPairs_even (h2 : 2 ≤ a) (h30 : a ≤ 30) (heven : a % 2 = 0) :
    m.swapPairs.read16 a = assemble (m.read a) (m.read (a + 1)) := by
  rw [Memory.read16, m.read_swapPairs_even h2 (by omega) heven, m.read_swapPairs_odd (by omega) (by omega) (by omega),
    Nat.add_sub_cancel]

/-- At an odd offset: a byte each of two pairs, brought there by the exchange (20_memory.md R55). -/
theorem Memory.read16_swapPairs_odd (h3 : 3 ≤ a) (h29 : a ≤ 29) (hodd : a % 2 = 1) :
    m.swapPairs.read16 a = assemble (m.read (a + 2)) (m.read (a - 1)) := by
  rw [Memory.read16, m.read_swapPairs_odd h3 (by omega) hodd, m.read_swapPairs_even (by omega) (by omega) (by omega)]

end

/-- Settles O45: the buffer after NORM is the one before it with its pairs exchanged. -/
theorem normalizedFieldsAreTheWireValues : Obligations.NormalizedFieldsAreTheWireValues := by
  refine fun s => ⟨_, rfl, fun a h2 h30 heven => ?_, fun a h3 h29 hodd => ?_⟩
  · rw [State.drive_buf, Memory.read16_swapPairs_even _ h2 h30 heven, assemble_toNat]
  · rw [State.drive_buf, Memory.read16_swapPairs_odd _ h3 h29 hodd, assemble_toNat, Nat.add_comm]

end Sys2Proof.Machine
end

section
/-! SUPPORT. The encoding (30_encoding.md): the decoder reads back what the encoder writes, accepts nothing else, and finds
every dispatch word in one row; then the codes and the words of the tables. -/

namespace Sys2Proof.Machine

open Sys2Proof

/-! ### Decoding an encoding -/

theorem Instr.wf_frame_iff (len : Word) (body : List Byte) :
    (Instr.frame len body).wf = true ↔ body.length = len.toNat := by
  simp [Instr.wf]

/-- The length field of an encoded frame gives back its length, and with it the end of its body (30_encoding.md R75). -/
theorem decodeW_encode_frame (len : Word) (body rest : List Byte) (h : body.length = len.toNat) :
    decodeW (encode (.frame len body) ++ rest) = .ok (.frame len body, rest) := by
  simp [encode, decodeW, assemble_highByte_lowByte, ← h]

/-- Settles O22: a command is compared as a constant string and an operation looked up by its constant word, so both
compute; a frame carries its own length. -/
theorem decodeOfEncodeIsTheInstruction : Obligations.DecodeOfEncodeIsTheInstruction := by
  intro i rest hwf
  cases i with
  | frame len body => exact decodeW_encode_frame len body rest ((Instr.wf_frame_iff len body).mp hwf)
  | _ => rfl

/-! ### Encoding what was decoded -/

theorem lookupRow_eq_find? (d : DispatchWord) (rows : List DispatchRow) :
    lookupRow d rows = rows.find? (·.covers d) := by
  induction rows with
  | nil => rfl
  | cons r rows ih => rw [lookupRow, List.find?_cons, ih]; cases r.covers d <;> rfl

theorem lookupRow_some {d : DispatchWord} {rows : List DispatchRow} {r : DispatchRow} (h : lookupRow d rows = some r) :
    r ∈ rows ∧ r.covers d = true := by
  rw [lookupRow_eq_find?] at h
  have hcovers := List.find?_some h
  exact ⟨List.mem_of_find?_eq_some h, hcovers⟩

/-- A decoded operation is that of a row of the table which covers the dispatch word (30_encoding.md R77). -/
theorem decodeD_ok {bytes rest : List Byte} {i : Instr} (h : decodeD bytes = .ok (i, rest)) :
    ∃ d data, bytes = d :: data :: rest ∧ d.extractLsb' 6 2 = 0 ∧
      ∃ r ∈ dispatchTable, r.covers (d.extractLsb' 0 6) = true ∧ i = r.instr data := by
  match bytes with
  | [] | [_] => cases h
  | d :: data :: tail =>
    rw [decodeD, decodeDispatch] at h
    split at h
    next hwide =>
      cases hrow : lookupRow (d.extractLsb' 0 6) dispatchTable with
      | none => rw [hrow] at h; cases h
      | some r =>
        rw [hrow] at h
        cases h
        obtain ⟨hr, hcovers⟩ := lookupRow_some hrow
        exact ⟨d, data, rfl, hwide, r, hr, hcovers, rfl⟩
    next => cases h

/-- The instruction of a row of the dispatch table is an operation, and its own dispatch word is in that row
(30_encoding.md R77). -/
theorem encode_instr_of_mem_dispatchTable {r : DispatchRow} (hr : r ∈ dispatchTable) (data : Byte) :
    (r.instr data).wf = true ∧ (r.instr data).format = .dispatch ∧
      ∃ d' data', encode (r.instr data) = [d', data'] ∧ r.covers (d'.extractLsb' 0 6) = true := by
  fin_cases hr <;> exact ⟨rfl, rfl, _, _, rfl, rfl⟩

/-- Settles O23: a command or a frame by what its decoder keeps of the bytes, an operation by its row of the table. -/
theorem decodeAcceptsOnlyEncodings : Obligations.DecodeAcceptsOnlyEncodings := by
  intro f bytes rest i h
  cases f with
  | dispatch =>
    obtain ⟨d, data, rfl, hwide, r, hr, hcovers, rfl⟩ := decodeD_ok h
    obtain ⟨hwf, hformat, d', data', henc, hcovers'⟩ := encode_instr_of_mem_dispatchTable hr data
    exact ⟨hwf, hformat, fun hne => absurd rfl hne,
      fun _ => ⟨d, data, d', data', rfl, henc, r, hr, hcovers, hcovers', hwide, rfl⟩⟩
  | command =>
    obtain ⟨rfl | rfl, hbytes⟩ := decodeQ_ok _ _ _ h <;> exact ⟨rfl, rfl, fun _ => hbytes, nofun⟩
  | wire =>
    obtain ⟨len, body, rfl, hlen, hbytes⟩ := decodeW_ok _ _ _ h
    exact ⟨(Instr.wf_frame_iff len body).mpr hlen, rfl, fun _ => hbytes, nofun⟩

/-! ### The tables -/

/-- Settles O20, by going through the 64 words. -/
theorem everyDispatchWordIsInOneRow : Obligations.EveryDispatchWordIsInOneRow := by
  unfold Obligations.EveryDispatchWordIsInOneRow
  decide

/-- Settles O21: the decoder computes on each word. -/
theorem wordsOfTheTablesDecode : Obligations.WordsOfTheTablesDecode :=
  ⟨rfl, rfl, rfl, rfl, rfl, rfl, rfl, rfl, rfl, rfl⟩

/-- Settles O17. -/
theorem codesAreTheTables : Obligations.CodesAreTheTables :=
  ⟨rfl, rfl, rfl, rfl, rfl, rfl, rfl, rfl, rfl, rfl, rfl, rfl, rfl, rfl, rfl⟩

end Sys2Proof.Machine
end

section
/-! SUPPORT. The whole next state of the reserved row and of the instructions on the serial line (30_encoding.md R79, R82,
R71). -/

namespace Sys2Proof.Machine

open Sys2Proof

/-- Settles O13. -/
theorem reservedPhaseReturnsToIdle : Obligations.ReservedPhaseReturnsToIdle := fun _ => rfl

/-- Settles O14. -/
theorem commandsGoOutAndLeaveTheBlockAlone : Obligations.CommandsGoOutAndLeaveTheBlockAlone :=
  ⟨fun _ => ⟨rfl, rfl⟩, rfl, rfl⟩

/-- The bytes of a frame, told by the bytes of its length field (30_encoding.md R71, R73). -/
theorem encode_frame_assemble (lenH lenL : Byte) (body : List Byte) :
    encode (.frame (assemble lenH lenL) body) = 0x42 :: 0x4D :: lenH :: lenL :: body := by
  rw [encode, highByte_assemble, lowByte_assemble, sig0, sig1]

/-- Settles O15: the length is the one its two bytes assemble to. -/
theorem frameBytesJoinTheByteSource : Obligations.FrameBytesJoinTheByteSource := by
  intro s len lenH lenL body hlen
  obtain rfl : len = assemble lenH lenL := BitVec.eq_of_toNat_eq (by rw [hlen, assemble_toNat])
  rw [exec, execFrame, encode_frame_assemble]
  rfl

end Sys2Proof.Machine
end

section
/-! SUPPORT. What a step on a placed act of the environment does (30_encoding.md R71, R76, R81, R82), and the inputs a
clock step ignores (30_encoding.md R78). -/

namespace Sys2Proof.Machine

open Sys2Proof

/-! ### Placed acts -/

section
variable {s : State} {es : List Event}

theorem step_of_cons {e : Event} (he : s.events = e :: es) : step s = perform e { s with events := es } := by
  rw [step, s.nextEvent_of_cons e es he, s.dropEvent_of_cons e es he]

/-- A placed clock step without reset runs the operation of the state, which does not depend on the acts placed. -/
theorem step_of_clock {start tick : Bool} (he : s.events = .clock false start tick :: es) :
    step s = exec (s.operation start tick) { s with events := es } := by
  rw [step_of_cons he, perform, clockStep_operation]
  rfl

theorem outboundStep_of_decode {bytes : List Byte} {i : Instr} (h : decode .command bytes = .ok (i, [])) :
    outboundStep bytes s = exec i s := by
  rw [outboundStep, h]

theorem inboundStep_of_decode {bytes : List Byte} {i : Instr} (h : decode .wire bytes = .ok (i, [])) :
    inboundStep bytes s = exec i s := by
  rw [inboundStep, h]

end

/-- Settles O24: the placed event decides between the reset and the operation of the state. -/
theorem clockStepRunsTheSelectedOperation : Obligations.ClockStepRunsTheSelectedOperation := by
  intro s rst start tick es he
  cases rst with
  | true => exact step_of_cons he
  | false => exact step_of_clock he

/-- Settles O25: a clock step's bytes decode to the state's operation and to nothing else. -/
theorem stepRunsTheDecodedInstruction : Obligations.StepRunsTheDecodedInstruction := by
  refine fun s i es => ⟨fun start tick rest he hd => ?_, fun bytes he hd => ?_, fun bytes he hd => ?_⟩
  · rw [decode_fetchBytes] at hd
    cases hd
    exact step_of_clock he
  · rw [step_of_cons he, perform, inboundStep_of_decode hd]
  · rw [step_of_cons he, perform, outboundStep_of_decode hd]

/-- Settles O26: a frame is received like any other bytes. -/
theorem anyInboundBytesAreLegal : Obligations.AnyInboundBytesAreLegal := by
  intro s bytes es he
  rw [step_of_cons he, perform, inboundStep_eq]
  rfl

/-! ### Inputs that do not select -/

section
variable {s : State}

/-- `start` selects in IDLE only (30_encoding.md R78). -/
theorem operation_of_not_idle (hp : s.phase ≠ .idle) (start tick : Bool) :
    s.operation start tick = s.operation false tick := by
  unfold State.operation
  cases hphase : s.phase with
  | idle => exact absurd hphase hp
  | _ => rfl

/-- `tick` and the byte on offer select in SCAN and BODY only (30_encoding.md R78). -/
theorem operation_of_not_wait {s' : State} (hp : s.phase.isWait = false) (hsame : s'.phase = s.phase)
    (start tick tick' : Bool) : s'.operation start tick' = s.operation start tick := by
  unfold State.operation
  rw [hsame]
  cases hphase : s.phase with
  | scan | body => rw [hphase] at hp; cases hp
  | _ => rfl

/-- In a wait phase a tick comes before the byte on offer (30_encoding.md R76). -/
theorem operation_tick_of_wait (hp : s.phase.isWait = true) (start : Bool) :
    s.operation start true = .scanT ∨ s.operation start true = .bodyT := by
  unfold State.operation
  cases hphase : s.phase with
  | scan => exact .inl rfl
  | body => exact .inr rfl
  | _ => rw [hphase] at hp; cases hp

end

/-! ### Operations that leave the Byte Source alone -/

theorem State.countTick_withSource (s : State) (budget : Nat) (k : ErrKind) (source : List Byte) :
    { s with source := source }.countTick budget k = { s.countTick budget k with source := source } := by
  unfold State.countTick
  split <;> rfl

section
variable {i : Instr} {s t : State}

theorem exec_source_eq (hi : isOperation i) (htake : takesOffer i = false) (h : exec i s = .next t) :
    t.source = s.source :=
  (exec_writesOnly h).source (by rintro _ rfl; cases htake) (by rintro _ rfl; cases htake) (by rintro _ _ rfl; cases hi)

/-- An operation other than SCAN.B and BODY.B does the same whatever the Byte Source holds. -/
theorem exec_withSource (hi : isOperation i) (htake : takesOffer i = false) (h : exec i s = .next t)
    (source : List Byte) : exec i { s with source := source } = .next { t with source := source } := by
  cases i with
  | scanB | bodyB => cases htake
  | cmdPassive | cmdRequest | frame => cases hi
  | start | hold | scanW | bodyW | norm | rslv | rsvd7 => cases h; rfl
  | scanT | bodyT =>
    cases h
    exact congrArg Host.Outcome.next ((s.drive false true).countTick_withSource _ _ source)
  | csum =>
    simp only [exec, execCsum] at h ⊢
    split at h
    next hcap =>
      rw [if_pos hcap]
      split at h
      next hsum => cases h; rw [if_pos hsum]; rfl
      next hsum => cases h; rw [if_neg hsum]; rfl
    next => cases h
  | sigc =>
    simp only [exec, execSigc] at h ⊢
    split at h
    next hsig => cases h; rw [if_pos hsig]; rfl
    next hsig => cases h; rw [if_neg hsig]; rfl

end

/-! ### The ignored inputs -/

theorem takesOffer_operation_of_not_wait {s : State} (hp : s.phase.isWait = false) (start tick : Bool) :
    takesOffer (s.operation start tick) = false := by
  rw [takesOffer_operation, State.ready, hp, Bool.false_and, Bool.false_and, Bool.and_false]

theorem step_placed_clock (s : State) (start tick : Bool) (es : List Event) :
    step { s with events := .clock false start tick :: es } = exec (s.operation start tick) { s with events := es } :=
  step_of_clock rfl

/-- Settles O27: an ignored input does not change which operation is selected, and outside the wait phases and beside a
tick the operation does not take the byte on offer. -/
theorem ignoredInputsChangeNothing : Obligations.IgnoredInputsChangeNothing := by
  refine fun s start tick es =>
    ⟨fun hidle => ?start, fun hwait => ?tick, fun hwait source t h => ?offer, fun hwait => ?beside, fun hidle => ?idle⟩
  case start => rw [step_placed_clock, step_placed_clock, operation_of_not_idle hidle]
  case tick => rw [step_placed_clock, step_placed_clock, operation_of_not_wait hwait rfl]
  case offer =>
    rw [step_placed_clock] at h
    have hop := isOperation_operation s start tick
    have htake := takesOffer_operation_of_not_wait hwait start tick
    have hsource := exec_source_eq hop htake h
    have hsame : State.operation { s with source := source } start tick = s.operation start tick :=
      operation_of_not_wait (s' := { s with source := source }) hwait rfl start tick tick
    refine ⟨hsource, ?_⟩
    calc step { s with source := source, events := .clock false start tick :: es }
      _ = exec (State.operation { s with source := source } start tick) { s with source := source, events := es } :=
        step_placed_clock { s with source := source } start tick es
      _ = exec (s.operation start tick) { s with source := source, events := es } := by rw [hsame]
      _ = .next { t with source := source } := exec_withSource hop htake h source
  case beside =>
    rw [step_placed_clock]
    rcases operation_tick_of_wait hwait start with hi | hi <;> rw [hi]
    · exact ⟨_, rfl, exec_source_eq (i := .scanT) (s := { s with events := es }) rfl rfl rfl⟩
    · exact ⟨_, rfl, exec_source_eq (i := .bodyT) (s := { s with events := es }) rfl rfl rfl⟩
  case idle => rw [step_placed_clock, State.operation, hidle]; rfl

end Sys2Proof.Machine
end

section
/-! SUPPORT. START and HOLD (40_sequencing.md R100, R101), and the phase transition table (40_sequencing.md R104). -/

namespace Sys2Proof.Machine

open Sys2Proof

/-! ### START and HOLD -/

/-- START leaves the registers of State.reset but for the phase, and of the state before it the store, `last_err` and the
environment's record (40_sequencing.md R100). -/
theorem exec_start_eq (s : State) :
    exec .start s = .next
      { State.reset with
        phase := .scan, stFrame := s.stFrame, stVar := s.stVar, stValid := s.stValid, lastErr := s.lastErr, cfg := s.cfg,
        source := s.source, outbound := s.outbound, events := s.events, fresh := s.fresh } := rfl

/-- Settles O1. -/
theorem startBeginsReadWithCleanRegisters : Obligations.StartBeginsReadWithCleanRegisters := fun s =>
  ⟨_, exec_start_eq s, rfl, rfl, rfl, fun _ _ => rfl, rfl, rfl, rfl, rfl, rfl, rfl, rfl, ⟨rfl, rfl, rfl⟩, rfl, rfl,
    ⟨rfl, rfl, rfl, rfl⟩⟩

/-- Settles O2: what START leaves of the state before it is the same in both. -/
theorem startForgetsThePreviousRead : Obligations.StartForgetsThePreviousRead := by
  rintro s s' ⟨hframe, hvar, hvalid⟩ herr hsource ⟨hcfg, hout, hevents, hfresh⟩
  rw [exec_start_eq, exec_start_eq, hframe, hvar, hvalid, herr, hsource, hcfg, hout, hevents, hfresh]

/-- Settles O3. -/
theorem holdChangesNoRegister : Obligations.HoldChangesNoRegister := fun _ => rfl

/-! ### The phase transition table -/

/-- What a row of the table says of the state an operation leaves (40_sequencing.md R104). -/
def Target.isMetBy (target : Target) (t : State) : Prop :=
  t.phase = target.phase ∧ (t.out.done = true ↔ target.ends.isSome = true) ∧
    ∀ code, target.ends = some code → t.lastErr = code ∧ t.out.result = code

section
variable {s t : State}

/-- A row that lets the read go on. -/
theorem Target.isMetBy_of_not_done (hdone : t.out.done = false) : Target.isMetBy ⟨t.phase, none⟩ t :=
  ⟨rfl, by simp [hdone], nofun⟩

/-- A row that ends the read, by COMMIT or FAIL (46_reading_store.md R151, R152). -/
theorem State.finish_meets (s : State) (code : Option ErrKind) : Target.isMetBy ⟨.idle, some code⟩ (s.finish code) :=
  ⟨rfl, ⟨fun _ => rfl, fun _ => rfl⟩, fun _ h => by cases h; exact ⟨rfl, rfl⟩⟩

/-- A tick's row in the table, with the error `k` (41_frame_scanner.md R111, 42_frame_reader.md R123). -/
theorem State.countTick_meets (budget : Nat) (k : ErrKind) (hdone : s.out.done = false) :
    Target.isMetBy (if s.tmr + 1 ≥ budget then ⟨.idle, some (some k)⟩ else ⟨s.phase, none⟩) (s.countTick budget k) := by
  rcases s.countTick_cases budget k with ⟨hlt, ht⟩ | ⟨hle, ht⟩ <;> rw [ht]
  · rw [if_neg (Nat.not_le.mpr hlt)]
    exact Target.isMetBy_of_not_done hdone
  · rw [if_pos hle]
    exact State.finish_meets _ _

/-- The length after BODY.B as the table writes it, an exact number (42_frame_reader.md R120, R121). -/
theorem lengthAfter_toNat (m : Memory) (len : Word) (n : Nat) (data : Byte) :
    (lengthAfter m len n data).toNat = if n = 4 then 256 * (m.read 2).toNat + data.toNat else len.toNat := by
  rw [lengthAfter, apply_ite BitVec.toNat, assemble_toNat]

/-- BODY.B's row in the table, by its verdict (42_frame_reader.md R120). -/
theorem State.followVerdict_meets (data : Byte) :
    Target.isMetBy (transition s (.bodyB data))
      ((s.appended data).followVerdict
        (bodyVerdict (s.cnt.toNat + 1) (lengthAfter s.buf s.len (s.cnt.toNat + 1) data))) := by
  simp only [transition, ← lengthAfter_toNat]
  generalize lengthAfter s.buf s.len (s.cnt.toNat + 1) data = len
  have hzero_iff : len.toNat = 0 ↔ len = 0 := BitVec.toNat_inj (y := 0)
  simp only [hzero_iff]
  rcases bodyVerdict_cases (s.cnt.toNat + 1) len with
    ⟨hv, hn, hzero⟩ | ⟨hv, hzero, hend⟩ | ⟨hv, hzero, hend, hfull⟩ | ⟨hv, hzero, hend, hfull⟩ <;> rw [hv]
  · rw [if_pos ⟨hn, hzero⟩]
    exact State.finish_meets _ _
  · rw [if_neg hzero, if_pos hend]
    exact Target.isMetBy_of_not_done rfl
  · rw [if_neg hzero, if_neg hend, if_pos hfull]
    exact State.finish_meets _ _
  · rw [if_neg hzero, if_neg hend, if_neg hfull]
    exact Target.isMetBy_of_not_done rfl

/-- Every operation follows its row of the table. -/
theorem exec_meets_transition {i : Instr} (hi : isOperation i) (h : exec i s = .next t) :
    (transition s i).isMetBy t := by
  cases i with
  | cmdPassive | cmdRequest | frame => cases hi
  | start | hold | scanW | bodyW | norm | rslv | rsvd7 => cases h; exact Target.isMetBy_of_not_done rfl
  | scanT | bodyT => cases h; exact State.countTick_meets (s := s.drive false true) _ _ rfl
  | scanB data =>
    rw [transition]
    rcases exec_scanB_cases h with ⟨hseen, rfl⟩ | ⟨hseen, rfl⟩
    · rw [if_pos hseen]; exact Target.isMetBy_of_not_done rfl
    · rw [if_neg hseen]; exact Target.isMetBy_of_not_done rfl
  | bodyB data =>
    obtain ⟨-, rfl⟩ := exec_bodyB_cases h
    exact State.followVerdict_meets data
  | csum =>
    rw [transition, ← computedSum_eq, ← receivedSum_eq]
    rcases exec_csum_cases h with ⟨hsum, rfl⟩ | ⟨hsum, rfl⟩
    · rw [if_pos hsum]; exact Target.isMetBy_of_not_done rfl
    · rw [if_neg hsum]; exact State.finish_meets _ _
  | sigc =>
    rw [transition]
    rcases exec_sigc_cases h with ⟨hsig, rfl⟩ | ⟨hsig, rfl⟩
    · rw [if_pos hsig]; exact State.finish_meets _ _
    · rw [if_neg hsig]; exact State.finish_meets _ _

end

/-- Settles O29: an operation follows its row, and a placed reset goes to IDLE. -/
theorem phasesFollowTheTransitionTable : Obligations.PhasesFollowTheTransitionTable :=
  ⟨fun _ _ _ => exec_meets_transition, fun _ _ _ _ he => ⟨_, step_of_cons he, rfl⟩⟩

end Sys2Proof.Machine
end

section
/-! SUPPORT. Every read ends when ticks come (40_sequencing.md R103): runs of the machine, the ticks a read has left, and
that no step of a read has more left after it, less its own tick, than before it. -/

namespace Sys2Proof.Machine

open Sys2Proof

/-! ### Runs of a machine -/

section
variable {M : Host.Core} {s t : M.State}

theorem run_succ (h : M.step s = .next t) (n : Nat) : M.run (n + 1) s = M.run n t := by
  rw [Host.Core.run, h]

/-- A run goes on from where its first part has come to. -/
theorem run_add {m : Nat} (h : M.run m s = .next t) (n : Nat) : M.run (m + n) s = M.run n t := by
  induction m generalizing s with
  | zero => cases h; rw [Nat.zero_add]
  | succ m ih =>
    cases hstep : M.step s with
    | next u =>
      rw [run_succ hstep] at h
      rw [Nat.succ_add, run_succ hstep, ih h]
    | fault | refused => rw [Host.Core.run, hstep] at h; cases h

end

/-! ### The ticks a read has left -/

/-- The ticks a read has left at most: what is left of the budgets, and one for each post stage still to come. -/
def State.ticksLeft (s : State) : Nat :=
  match s.phase with
  | .scan => s.cfg.tScan - s.tmr + s.cfg.tBody + 4
  | .body => s.cfg.tBody - s.tmr + 4
  | .norm => 4
  | .rslv => 3
  | .csum => 2
  | .sigc => 1
  | .idle | .rsvd7 => 0

theorem State.ticksLeft_le (s : State) : s.ticksLeft ≤ s.cfg.tScan + s.cfg.tBody + 4 := by
  unfold State.ticksLeft
  split <;> omega

theorem tickCount_cons (e : Event) (es : List Event) : tickCount (e :: es) = tickCount [e] + tickCount es := by
  cases e <;> simp [tickCount]

section
variable {s t : State}

theorem State.ticksLeft_pos (hidle : s.phase ≠ .idle) (hlegal : s.phaseLegal) : 1 ≤ s.ticksLeft := by
  unfold State.ticksLeft
  cases hp : s.phase with
  | idle => exact absurd hp hidle
  | rsvd7 => exact absurd hp hlegal
  | _ => simp

/-- A tick that leaves some of the budget takes one of the ticks that are left. -/
theorem State.ticksLeft_countTick (budget : Nat) (k : ErrKind)
    (hp : s.phase = .scan ∧ budget = s.cfg.tScan ∨ s.phase = .body ∧ budget = s.cfg.tBody)
    (ht : (s.countTick budget k).phase ≠ .idle) : (s.countTick budget k).ticksLeft + 1 ≤ s.ticksLeft := by
  rcases s.countTick_cases budget k with ⟨hlt, heq⟩ | ⟨-, heq⟩ <;> rw [heq] at ht ⊢
  · rcases hp with ⟨hp, rfl⟩ | ⟨hp, rfl⟩ <;> simp only [State.ticksLeft, hp] <;> omega
  · exact absurd rfl ht

/-- An operation that lets its read go on takes one of the ticks that are left if it counts one, and adds none. -/
theorem exec_operation_ticksLeft {start tick : Bool} (hidle : s.phase ≠ .idle) (hlegal : s.phaseLegal)
    (h : exec (s.operation start tick) s = .next t) (ht : t.phase ≠ .idle) :
    t.ticksLeft + (if tick then 1 else 0) ≤ s.ticksLeft := by
  have htick : (if tick then 1 else 0) ≤ 1 := by split <;> decide
  rw [State.operation] at h
  cases hp : s.phase <;> rw [hp] at h
  case idle => exact absurd hp hidle
  case rsvd7 => exact absurd hp hlegal
  case scan =>
    cases tick with
    | true => cases h; exact State.ticksLeft_countTick (s := s.drive false true) _ _ (.inl ⟨hp, rfl⟩) ht
    | false =>
      cases hv : s.valid <;> rw [hv] at h
      · cases h; exact Nat.le_refl _
      · rcases exec_scanB_cases h with ⟨-, rfl⟩ | ⟨-, rfl⟩
        · simp [State.ticksLeft, State.scanned, hp]
        · exact Nat.le_refl _
  case body =>
    cases tick with
    | true => cases h; exact State.ticksLeft_countTick (s := s.drive false true) _ _ (.inr ⟨hp, rfl⟩) ht
    | false =>
      cases hv : s.valid <;> rw [hv] at h
      · cases h; exact Nat.le_refl _
      · obtain ⟨-, rfl⟩ := exec_bodyB_cases h
        cases hverdict : bodyVerdict (s.cnt.toNat + 1) (lengthAfter s.buf s.len (s.cnt.toNat + 1) s.data) <;>
          rw [hverdict] at ht
        case zeroLength | full => exact absurd rfl ht
        case complete => simp [State.ticksLeft, State.followVerdict, hp]
        case more => exact Nat.le_refl _
  case norm | rslv => cases h; simp only [State.ticksLeft, hp]; exact Nat.add_le_add_left htick _
  case csum =>
    rcases exec_csum_cases h with ⟨-, rfl⟩ | ⟨-, rfl⟩
    · simp only [State.ticksLeft, hp]; exact Nat.add_le_add_left htick _
    · exact absurd rfl ht
  case sigc => rcases exec_sigc_cases h with ⟨-, rfl⟩ | ⟨-, rfl⟩ <;> exact absurd rfl ht

/-! ### The end of a read -/

/-- In a read, an act that lets it go on either ends it or takes its own tick from those that are left. -/
theorem Invariant.step_of_read {e : Event} {es : List Event} (h : Invariant s) (hidle : s.phase ≠ .idle)
    (he : s.events = e :: es) (hgo : letsReadGoOn e = true) :
    ∃ t, step s = .next t ∧ t.events = es ∧
      ((t.phase = .idle ∧ t.out.done = true) ∨ (t.phase ≠ .idle ∧ t.ticksLeft + tickCount [e] ≤ s.ticksLeft)) := by
  have h' : Invariant { s with events := es } := h.withEnvironment _ _ _ _ _
  rw [step_of_cons he]
  cases e with
  | outbound => cases hgo
  | inbound bytes => exact ⟨_, inboundStep_eq _ _, rfl, .inr ⟨hidle, Nat.le_refl _⟩⟩
  | clock rst start tick =>
    obtain rfl : rst = false := by simpa [letsReadGoOn] using hgo
    obtain ⟨t, ht⟩ := h'.goesOn_operation start tick
    refine ⟨t, (clockStep_operation ..).trans ht, (exec_writesOnly ht).events, ?_⟩
    have hread : runsRead (State.operation { s with events := es } start tick) = true :=
      (runsRead_operation ..).mpr ⟨hidle, h.phaseLegal⟩
    cases exec_readOutcome _ _ t hread ht with
    | goesOn _ phase _ _ =>
      have htidle : t.phase ≠ .idle := fun hp => hidle (phase hp)
      exact .inr ⟨htidle, exec_operation_ticksLeft (s := { s with events := es }) hidle h.phaseLegal ht htidle⟩
    | ends out phase _ => exact .inl ⟨phase, by rw [out]⟩

/-- A read ends within acts that bring as many ticks as it has left. -/
theorem Invariant.read_ends {es rest : List Event} (h : Invariant s) (hidle : s.phase ≠ .idle)
    (he : s.events = es ++ rest) (hgo : ∀ e ∈ es, letsReadGoOn e = true) (hticks : s.ticksLeft ≤ tickCount es) :
    ∃ (n : Nat) (t : State), 1 ≤ n ∧ n ≤ es.length ∧ Host.Core.run core n s = .next t ∧ t.phase = .idle ∧
      t.out.done = true := by
  induction es generalizing s with
  | nil => exact absurd (Nat.le_trans (State.ticksLeft_pos hidle h.phaseLegal) hticks) (by decide)
  | cons e es ih =>
    rw [List.forall_mem_cons] at hgo
    rw [tickCount_cons] at hticks
    obtain ⟨t, hstep, hevents, ⟨hend, hdone⟩ | ⟨hon, hleft⟩⟩ := h.step_of_read hidle he hgo.1
    · exact ⟨1, t, Nat.le_refl 1, by simp, run_succ (M := core) hstep 0, hend, hdone⟩
    · obtain ⟨n, u, -, hn, hrun, hu⟩ :=
        ih (everyStepKeepsTheInvariant s t h hstep) hon hevents hgo.2 (by omega)
      exact ⟨n + 1, u, by simp, by simpa using hn, (run_succ (M := core) hstep n).trans hrun, hu⟩

end

/-- Settles O57: the ticks a read has left are at most the two budgets and one for each post stage. -/
theorem everyReadEndsWhenTicksCome : Obligations.EveryReadEndsWhenTicksCome :=
  fun s _ _ h hidle he hgo hticks => h.read_ends hidle he hgo (Nat.le_trans s.ticksLeft_le hticks)

end Sys2Proof.Machine
end

section
/-! SUPPORT. A whole read of a sender's frame (40_sequencing.md R102): the bytes in the buffer and their sum, then the read
stage by stage, each in clock steps without strobes. -/

namespace Sys2Proof.Machine

open Sys2Proof

/-! ### Bytes in the buffer -/

/-- The memory begins with `bytes`, zeros after them. -/
def Memory.holds (m : Memory) (bytes : List Byte) : Prop := ∀ a, a < 32 → m.read a = bytes.getD a 0x00

section
variable {m : Memory} {bytes : List Byte}

theorem Memory.holds.write (h : m.holds bytes) (data : Byte) :
    (m.write bytes.length data).holds (bytes ++ [data]) := by
  intro a h32
  rw [Memory.read_write _ _ _ _ h32]
  rcases Nat.lt_trichotomy a bytes.length with hlt | rfl | hgt
  · rw [if_neg (by omega), List.getD_append _ _ _ _ hlt, h a h32]
  · rw [if_pos rfl, List.getD_append_right _ _ _ _ (Nat.le_refl _), Nat.sub_self, List.getD_cons_zero]
  · rw [if_neg (by omega), h a h32, List.getD_eq_default _ _ (by omega),
      List.getD_eq_default _ _ (by rw [List.length_append, List.length_singleton]; omega)]

theorem byteSum_append (bytes bytes' : List Byte) : byteSum (bytes ++ bytes') = byteSum bytes + byteSum bytes' := by
  induction bytes with
  | nil => exact (BitVec.zero_add _).symm
  | cons b bytes ih => rw [List.cons_append, byteSum, byteSum, ih, BitVec.add_assoc]

theorem Memory.holds.sumTo (h : m.holds bytes) {n : Nat} (hn : n ≤ bytes.length) (h32 : n ≤ 32) :
    m.sumTo n = byteSum (bytes.take n) := by
  induction n with
  | zero => rfl
  | succ n ih =>
    rw [Memory.sumTo, ih (by omega) (by omega), h n h32, ← List.take_concat_get' bytes n hn, byteSum_append, byteSum,
      byteSum, add_zero, List.getD_eq_getElem _ _ hn]

end

/-- The exchange of pairs does not change the sum of whole pairs (43_byte_order_normalizer.md R131). -/
theorem Memory.sumTo_swapPairs (m : Memory) {k : Nat} (hk : k ≤ 16) : m.swapPairs.sumTo (2 * k) = m.sumTo (2 * k) := by
  induction k with
  | zero => rfl
  | succ k ih =>
    rw [Nat.mul_succ]
    simp only [Memory.sumTo, ih (by omega)]
    rcases Nat.eq_zero_or_pos k with rfl | hpos
    · rw [Memory.read_swapPairs _ _ (by decide), Memory.read_swapPairs _ _ (by decide)]
      rfl
    · rw [m.read_swapPairs_even (by omega) (by omega) (by omega), m.read_swapPairs_odd (by omega) (by omega) (by omega),
        Nat.add_sub_cancel, BitVec.add_assoc, BitVec.add_assoc, BitVec.add_comm (BitVec.setWidth 16 _)]

/-! ### A frame in the buffer -/

/-- The registers of the Frame Reader after it has stored `bytes` (42_frame_reader.md R120). -/
structure Buffered (s : State) (bytes : List Byte) : Prop where
  cnt : s.cnt.toNat = bytes.length
  buf : s.buf.holds bytes
  len : 4 ≤ bytes.length → s.len = assemble (bytes.getD 2 0x00) (bytes.getD 3 0x00)

/-- The bytes of one wire frame whose declared length is `len` and accepted (30_encoding.md R71, R75). -/
structure IsFrame (bytes : List Byte) (len : Word) : Prop where
  length : bytes.length = len.toNat + 4
  field : assemble (bytes.getD 2 0x00) (bytes.getD 3 0x00) = len
  one_le : 1 ≤ len.toNat
  le_28 : len.toNat ≤ 28

/-- From `s` the machine has come to `t` in the same environment, `source` on offer and the acts `es` still to come. -/
structure ComesTo (s t : State) (source : List Byte) (es : List Event) : Prop where
  source : t.source = source
  events : t.events = es
  cfg : t.cfg = s.cfg
  outbound : t.outbound = s.outbound
  fresh : t.fresh = s.fresh

section
variable {s t u : State}

theorem ComesTo.trans {source source' : List Byte} {es es' : List Event} (h : ComesTo s t source es)
    (h' : ComesTo t u source' es') : ComesTo s u source' es' :=
  ⟨h'.source, h'.events, h'.cfg.trans h.cfg, h'.outbound.trans h.outbound, h'.fresh.trans h.fresh⟩

theorem Buffered.appended {bytes : List Byte} (h : Buffered s bytes) (hlen : bytes.length ≤ 31) (data : Byte) :
    Buffered (s.appended data) (bytes ++ [data]) where
  cnt := by rw [State.appended_cnt_toNat (by rw [h.cnt]; exact hlen), h.cnt, List.length_append, List.length_singleton]
  buf := by
    rw [State.appended_buf, h.cnt]
    exact h.buf.write data
  len h4 := by
    rw [List.length_append, List.length_singleton] at h4
    rw [State.appended_len, lengthAfter, h.cnt, List.getD_append _ _ _ 2 (by omega)]
    by_cases h3 : bytes.length = 3
    · rw [if_pos (by omega), h.buf 2 (by decide), List.getD_append_right _ _ _ 3 (by omega), h3]
      rfl
    · rw [if_neg (by omega), h.len (by omega), List.getD_append _ _ _ 3 (by omega)]

/-- Within a frame of an accepted length a byte completes it or is followed by more (42_frame_reader.md R125). -/
theorem bodyVerdict_of_le {n L : Nat} {len : Word} (h1 : 1 ≤ L) (h28 : L ≤ 28) (hn : n ≤ L + 4)
    (hlen : 4 ≤ n → len.toNat = L) : bodyVerdict n len = if n = L + 4 then .complete else .more := by
  rcases bodyVerdict_cases n len with ⟨-, rfl, rfl⟩ | ⟨hv, -, h4, hend⟩ | ⟨-, -, hend, hfull⟩ | ⟨hv, -, hend, -⟩
  · have hzero : 0 = L := hlen (Nat.le_refl 4)
    omega
  · have hL := hlen h4
    rw [hv, if_pos (by omega)]
  · have hL := hlen (by omega)
    omega
  · have hL := fun h4 => hlen h4
    rw [hv, if_neg (by omega)]

/-- The length field stands in the first four bytes of a frame. -/
theorem IsFrame.field_of_append {taken left : List Byte} {len : Word} (h : IsFrame (taken ++ left) len)
    (h4 : 4 ≤ taken.length) : assemble (taken.getD 2 0x00) (taken.getD 3 0x00) = len := by
  rw [← h.field, List.getD_append _ _ _ _ (by omega), List.getD_append _ _ _ _ (by omega)]

theorem IsFrame.length_le {taken left : List Byte} {data : Byte} {len : Word}
    (h : IsFrame (taken ++ [data] ++ left) len) : taken.length ≤ 31 := by
  have hlength := h.length
  have h28 := h.le_28
  rw [List.length_append, List.length_append, List.length_singleton] at hlength
  omega

/-- A byte of a frame completes it if it is the last (42_frame_reader.md R120, R125). -/
theorem Buffered.verdict {taken left : List Byte} {data : Byte} {len : Word} (h : Buffered s taken)
    (hframe : IsFrame (taken ++ [data] ++ left) len) :
    bodyVerdict (s.cnt.toNat + 1) (s.appended data).len = if left = [] then .complete else .more := by
  have hlength := hframe.length
  rw [List.length_append, List.length_append, List.length_singleton] at hlength
  rw [h.cnt, bodyVerdict_of_le hframe.one_le hframe.le_28 (by omega) fun h4 => ?_]
  · refine if_congr ?_ rfl rfl
    rw [← List.length_eq_zero_iff]
    omega
  · have h4 : 4 ≤ (taken ++ [data]).length := by rwa [List.length_append]
    rw [← hframe.field_of_append h4, (h.appended hframe.length_le data).len h4]

/-! ### The operations of a read that succeeds -/

theorem operation_scan_byte {data : Byte} {rest : List Byte} (hp : s.phase = .scan) (hsource : s.source = data :: rest) :
    s.operation false false = .scanB data := by
  rw [State.operation, State.valid, State.data, hp, hsource]
  rfl

theorem operation_body_byte {data : Byte} {rest : List Byte} (hp : s.phase = .body) (hsource : s.source = data :: rest) :
    s.operation false false = .bodyB data := by
  rw [State.operation, State.valid, State.data, hp, hsource]
  rfl

theorem exec_scanB_of_seen {data : Byte} (h : s.win1 = 0x42 ∧ data = 0x4D) :
    exec (.scanB data) s = .next (s.scanned data).lockFrame :=
  congrArg Host.Outcome.next (if_pos ((signatureSeen_iff _ _).mpr h))

theorem exec_scanB_of_not_seen {data : Byte} (h : ¬(s.win1 = 0x42 ∧ data = 0x4D)) :
    exec (.scanB data) s = .next (s.scanned data) :=
  congrArg Host.Outcome.next (if_neg (mt (signatureSeen_iff _ _).mp h))

theorem exec_bodyB_of_le {data : Byte} (h31 : s.cnt.toNat ≤ 31) :
    exec (.bodyB data) s =
      .next ((s.appended data).followVerdict (bodyVerdict (s.cnt.toNat + 1) (s.appended data).len)) :=
  if_pos (Nat.lt_succ_of_le h31)

/-- BODY.B on a byte of a frame goes on to NORM if the byte is the last. -/
theorem Buffered.exec_bodyB {taken left : List Byte} {data : Byte} {len : Word} (h : Buffered s taken)
    (hframe : IsFrame (taken ++ [data] ++ left) len) (hp : s.phase = .body) :
    exec (.bodyB data) s = .next { s.appended data with phase := if left = [] then .norm else .body } := by
  have hcnt : s.cnt.toNat ≤ 31 := by rw [h.cnt]; exact hframe.length_le
  rw [exec_bodyB_of_le hcnt, h.verdict hframe]
  split
  · rfl
  · rw [← hp]; rfl

theorem exec_csum_of_sum (h28 : s.len.toNat ≤ 28) (hsum : computedSum s.buf s.len = receivedSum s.buf s.len) :
    exec .csum s = .next { s.summed with phase := .sigc } := by
  have hcap : ckOffset s.len + 1 < bufCap := by rw [ckOffset_eq, bufCap]; omega
  exact (if_pos hcap).trans (congrArg Host.Outcome.next (if_pos (beq_iff_eq.mpr hsum)))

theorem exec_sigc_of_signature (hsig : s.buf.read 0 = 0x42 ∧ s.buf.read 1 = 0x4D) :
    exec .sigc s = .next (s.drive false true).commit :=
  congrArg Host.Outcome.next (if_pos ((signatureHolds_iff _).mpr hsig))

/-! ### The read, stage by stage -/

/-- A run whose next act is a clock step without reset runs the operation of the state and goes on from there. -/
theorem run_clock {start tick : Bool} {es : List Event} {i : Instr} {n : Nat} {o : Host.Outcome State Fault Refusal}
    (he : s.events = .clock false start tick :: es) (hi : s.operation start tick = i)
    (hexec : exec i { s with events := es } = .next t) (hrun : Host.Core.run core n t = o) :
    Host.Core.run core (n + 1) s = o := by
  subst hi
  exact (run_succ (M := core) ((step_of_clock he).trans hexec) n).trans hrun

/-- START, and the two bytes of the signature (40_sequencing.md R100, 41_frame_scanner.md R110). -/
theorem run_start_signature {rest : List Byte} {es : List Event} (hp : s.phase = .idle)
    (hsource : s.source = 0x42 :: 0x4D :: rest)
    (he : s.events = .clock false true false :: .clock false false false :: .clock false false false :: es) :
    ∃ t, Host.Core.run core 3 s = .next t ∧ t.phase = .body ∧ Buffered t [0x42, 0x4D] ∧ ComesTo s t rest es := by
  have hstart : s.operation true false = .start := by rw [State.operation, hp]; rfl
  have hbuf : ((Memory.clear.write 0 0x42).write 1 0x4D).holds [0x42, 0x4D] :=
    Memory.holds.write (Memory.holds.write (bytes := []) (fun _ _ => rfl) 0x42) 0x4D
  have hsource' : s.source.drop 1 = 0x4D :: rest := congrArg (List.drop 1) hsource
  refine ⟨_, run_clock he hstart (exec_start_eq _) <|
    run_clock rfl (operation_scan_byte rfl hsource) (exec_scanB_of_not_seen fun h => absurd h.2 (by decide)) <|
    run_clock rfl (operation_scan_byte rfl hsource') (exec_scanB_of_seen ⟨rfl, rfl⟩) rfl, ?_⟩
  exact ⟨rfl, ⟨rfl, hbuf, nofun⟩, ⟨congrArg (List.drop 1) hsource', rfl, rfl, rfl, rfl⟩⟩

/-- One byte of a frame's body (42_frame_reader.md R120). -/
theorem step_body_byte {taken left rest : List Byte} {data : Byte} {len : Word} {es : List Event}
    (h : Buffered s taken) (hframe : IsFrame (taken ++ [data] ++ left) len) (hp : s.phase = .body)
    (hsource : s.source = data :: rest) (he : s.events = .clock false false false :: es) :
    ∃ t, step s = .next t ∧ t.phase = (if left = [] then .norm else .body) ∧ Buffered t (taken ++ [data]) ∧
      ComesTo s t rest es := by
  have h' : Buffered { s with events := es } taken := ⟨h.cnt, h.buf, h.len⟩
  have happ := h'.appended hframe.length_le data
  have hstep := step_of_clock he
  rw [operation_body_byte hp hsource, h'.exec_bodyB hframe hp] at hstep
  exact ⟨_, hstep, rfl, ⟨happ.cnt, happ.buf, happ.len⟩, congrArg (List.drop 1) hsource, rfl, rfl, rfl, rfl⟩

/-- The rest of a frame's body. -/
theorem run_body {left taken rest : List Byte} {len : Word} {es : List Event} (h : Buffered s taken)
    (hframe : IsFrame (taken ++ left) len) (hleft : left ≠ []) (hp : s.phase = .body)
    (hsource : s.source = left ++ rest)
    (he : s.events = List.replicate left.length (.clock false false false) ++ es) :
    ∃ t, Host.Core.run core left.length s = .next t ∧ t.phase = .norm ∧ Buffered t (taken ++ left) ∧
      ComesTo s t rest es := by
  induction left generalizing s taken with
  | nil => exact absurd rfl hleft
  | cons data left ih =>
    rw [List.append_cons] at hframe ⊢
    obtain ⟨t, hstep, htp, htbuf, ht⟩ := step_body_byte h hframe hp hsource he
    by_cases hend : left = []
    · subst hend
      refine ⟨t, run_succ (M := core) hstep 0, htp, ?_, ht⟩
      rwa [List.append_nil]
    · rw [if_neg hend] at htp
      obtain ⟨u, hrun, hup, hubuf, hu⟩ := ih htbuf hframe hend htp ht.source ht.events
      exact ⟨u, (run_succ (M := core) hstep _).trans hrun, hup, hubuf, ht.trans hu⟩

/-- The post stages on a frame that passes both tests (43_byte_order_normalizer.md R130 to 46_reading_store.md R151). -/
theorem run_post_stages {es : List Event} (hp : s.phase = .norm) (h28 : s.len.toNat ≤ 28)
    (hsum : computedSum s.buf.swapPairs s.len = receivedSum s.buf.swapPairs s.len)
    (hsig : s.buf.swapPairs.read 0 = 0x42 ∧ s.buf.swapPairs.read 1 = 0x4D)
    (he : s.events = List.replicate 4 (.clock false false false) ++ es) :
    Host.Core.run core 4 s = .next
      { s with
        buf := s.buf.swapPairs, var := variantOf (s.buf.swapPairs.read16 2), acc := computedSum s.buf.swapPairs s.len
        phase := .idle, stFrame := s.buf.swapPairs, stVar := variantOf (s.buf.swapPairs.read16 2), stValid := true
        lastErr := none, events := es, out := { ready := false, busy := true, done := true, result := none } } := by
  have hnorm : s.operation false false = .norm := by rw [State.operation, hp]; rfl
  exact run_clock he hnorm rfl <| run_clock rfl rfl rfl <| run_clock rfl rfl (exec_csum_of_sum h28 hsum) <|
    run_clock rfl rfl (exec_sigc_of_signature hsig) rfl

end

/-! ### The frames of a sender -/

/-- A frame of a well-formed sender is a wire frame that begins with the signature, of whole pairs, and its last pair is the
sum of the bytes before it (30_encoding.md R71, R86). -/
structure SenderBytes (bytes : List Byte) (len : Word) : Prop extends IsFrame bytes len where
  byte0 : bytes.getD 0 0x00 = 0x42
  byte1 : bytes.getD 1 0x00 = 0x4D
  even : len.toNat % 2 = 0
  sum : assemble (bytes.getD (len.toNat + 2) 0x00) (bytes.getD (len.toNat + 3) 0x00) =
    byteSum (bytes.take (len.toNat + 2))

theorem senderBytes_encode {len : Word} {body : List Byte} (h : senderFrame len body) :
    SenderBytes (encode (.frame len body)) len := by
  obtain ⟨hacc, heven, hlength, hsum⟩ := h
  simp only [lenAccepted, Bool.and_eq_true, decide_eq_true_eq] at hacc
  have heven : len.toNat % 2 = 0 := beq_iff_eq.mp heven
  refine ⟨⟨?_, assemble_highByte_lowByte len, hacc.1, hacc.2⟩, rfl, rfl, heven, ?_⟩
  · simp [encode, hlength]
  · rw [← hsum]
    obtain ⟨k, hk⟩ : ∃ k, len.toNat = k + 2 := ⟨len.toNat - 2, by omega⟩
    rw [hk]
    rfl

/-- The field of the normalized buffer at an even offset is the one the sender put there (20_memory.md R54). -/
theorem Memory.holds.field_normalized {m : Memory} {bytes : List Byte} (h : m.holds bytes) {k : Nat} (h1 : 1 ≤ k)
    (h15 : k ≤ 15) :
    m.swapPairs.read16 (2 * k) = assemble (bytes.getD (2 * k) 0x00) (bytes.getD (2 * k + 1) 0x00) := by
  rw [m.read16_swapPairs_even (by omega) (by omega) (by omega), h _ (by omega), h _ (by omega)]

section
variable {m : Memory} {bytes : List Byte} {len : Word} (h : SenderBytes bytes len) (hm : m.holds bytes)
include h hm

theorem SenderBytes.length_normalized : m.swapPairs.read16 2 = len :=
  (hm.field_normalized (k := 1) (by decide) (by decide)).trans h.field

theorem SenderBytes.signature_normalized : m.swapPairs.read 0 = 0x42 ∧ m.swapPairs.read 1 = 0x4D :=
  ⟨(m.read_swapPairs 0 (by decide)).trans ((hm 0 (by decide)).trans h.byte0),
    (m.read_swapPairs 1 (by decide)).trans ((hm 1 (by decide)).trans h.byte1)⟩

theorem SenderBytes.zero_normalized {k : Nat} (hk : len.toNat / 2 + 1 < k) (h15 : k ≤ 15) :
    m.swapPairs.read16 (2 * k) = 0 := by
  have hbeyond : bytes.length ≤ 2 * k := by rw [h.length]; have := h.even; omega
  rw [hm.field_normalized (by omega) h15, List.getD_eq_default _ _ hbeyond, List.getD_eq_default _ _ (by omega)]
  rfl

/-- The checksum test passes (45_checksum_validator.md R140). -/
theorem SenderBytes.sum_normalized : computedSum m.swapPairs len = receivedSum m.swapPairs len := by
  have h28 := h.le_28
  have hlength := h.length
  obtain ⟨k, hk⟩ : ∃ k, len.toNat + 2 = 2 * k := ⟨len.toNat / 2 + 1, by have := h.even; omega⟩
  have hsum := h.sum
  rw [show len.toNat + 3 = len.toNat + 2 + 1 from rfl, hk] at hsum
  rw [computedSum_eq, receivedSum_eq, hk, m.sumTo_swapPairs (by omega), hm.sumTo (by omega) (by omega),
    hm.field_normalized (by omega) (by omega), hsum]

end

theorem State.fld_of_valid {s : State} {k : Nat} (hvalid : s.stValid = true) (h1 : 1 ≤ k) (h15 : k ≤ 15) :
    s.fld k = some (s.stFrame.read16 (2 * k)) :=
  if_pos ⟨hvalid, h1, h15⟩

/-- Settles O55: START and the signature, the rest of the body, the post stages; the buffer then holds the frame. -/
theorem senderFramesAreStored : Obligations.SenderFramesAreStored := by
  intro s len body rest es hp hsender hsource he
  have hframe := senderBytes_encode hsender
  have h28 := hframe.le_28
  obtain ⟨-, -, hlength, -⟩ := hsender
  have hbody : (highByte len :: lowByte len :: body).length = len.toNat + 2 := by simp [hlength]
  have hevents : s.events = .clock false true false :: .clock false false false :: .clock false false false ::
      (List.replicate (highByte len :: lowByte len :: body).length (.clock false false false) ++
        (List.replicate 4 (.clock false false false) ++ es)) := by
    rw [he, hbody, ← List.append_assoc, List.replicate_append_replicate]
    rfl
  obtain ⟨t, hrun, htp, htbuf, ht⟩ := run_start_signature hp hsource hevents
  obtain ⟨u, hrun', hup, hubuf, hu⟩ := run_body htbuf hframe.toIsFrame nofun htp ht.source ht.events
  have hlen : u.len = len := (hubuf.len (by simp)).trans hframe.field
  have hpost := run_post_stages hup (by rwa [hlen]) (by rw [hlen]; exact hframe.sum_normalized hubuf.buf)
    (hframe.signature_normalized hubuf.buf) hu.events
  have hread := (run_add (M := core) hrun _).trans ((run_add (M := core) hrun' 4).trans hpost)
  rw [hbody, show 3 + (len.toNat + 2 + 4) = len.toNat + 9 by omega] at hread
  have hsu := ht.trans hu
  refine ⟨_, hread, rfl, rfl, rfl, ?_, rfl, hsu.source, rfl, ⟨hsu.cfg, hsu.outbound, rfl, hsu.fresh⟩,
    fun k h1 hk => ?_, fun k hk h15 => ?_⟩
  · exact congrArg variantOf (hframe.length_normalized hubuf.buf)
  · exact (State.fld_of_valid rfl h1 (by omega)).trans (congrArg some (hubuf.buf.field_normalized h1 (by omega)))
  · exact (State.fld_of_valid rfl (by omega) h15).trans (congrArg some (hframe.zero_normalized hubuf.buf hk h15))

end Sys2Proof.Machine
end

section
/-! SUPPORT. The Frame Scanner (41_frame_scanner.md): what each of its operations makes of the state (R110 to R112), and where
START and a sequence of them come to (R113, R114). -/

namespace Sys2Proof.Machine

open Sys2Proof

/-! ### One operation -/

/-- Settles O4. -/
theorem pollsChangeNoRegister : Obligations.PollsChangeNoRegister := fun _ => ⟨rfl, rfl⟩

theorem Memory.read_write_signature (m : Memory) {a : Nat} (h32 : a < 32) :
    ((m.write 0 sig0).write 1 sig1).read a = if a = 0 then 0x42 else if a = 1 then 0x4D else m.read a := by
  rw [Memory.read_write _ _ _ _ h32, Memory.read_write _ _ _ _ h32]
  by_cases h1 : a = 1
  · subst h1; rfl
  · rw [if_neg h1, if_neg h1, sig0]

/-- Settles O5: with a match the window is followed by the lock, without one it is all that is written. -/
theorem scanByteShiftsWindowAndLocksOnSignature : Obligations.ScanByteShiftsWindowAndLocksOnSignature := by
  intro s data
  by_cases hseen : s.win1 = 0x42 ∧ data = 0x4D
  · refine ⟨_, exec_scanB_of_seen hseen, rfl, rfl, ?_, rfl, rfl, rfl, rfl, ⟨rfl, rfl, rfl⟩, rfl, rfl, rfl, rfl, rfl, rfl⟩
    rw [if_pos hseen]
    exact ⟨rfl, rfl, rfl, fun _ h32 => s.buf.read_write_signature h32⟩
  · refine ⟨_, exec_scanB_of_not_seen hseen, rfl, rfl, ?_, rfl, rfl, rfl, rfl, ⟨rfl, rfl, rfl⟩, rfl, rfl, rfl, rfl, rfl,
      rfl⟩
    rw [if_neg hseen]
    exact ⟨rfl, rfl, rfl, rfl⟩

/-- Settles O6: the two ticks are the same count against two budgets (41_frame_scanner.md R111, 42_frame_reader.md R123). -/
theorem ticksCountAndSpendTheBudget : Obligations.TicksCountAndSpendTheBudget := fun _ => ⟨rfl, rfl⟩

section
variable {s : State}

/-- A tick below the budget is only counted (41_frame_scanner.md R111). -/
theorem exec_scanT_of_lt (h : s.tmr + 1 < s.cfg.tScan) :
    exec .scanT s = .next { s.drive false true with tmr := s.tmr + 1 } :=
  congrArg Host.Outcome.next ((s.drive false true).countTick_of_lt _ _ h)

/-- The tick that spends the budget fails the read (41_frame_scanner.md R111). -/
theorem exec_scanT_of_le (h : s.cfg.tScan ≤ s.tmr + 1) :
    exec .scanT s = .next ({ s.drive false true with tmr := s.tmr + 1 }.fail .syncTimeout) :=
  congrArg Host.Outcome.next ((s.drive false true).countTick_of_le _ _ h)

end

/-! ### Sequences of operations -/

theorem runOps_cons {i : Instr} {s t : State} (h : exec i s = .next t) (ops : List Instr) :
    runOps (i :: ops) s = runOps ops t := by
  rw [runOps, h]

/-- A run of operations goes on from where its first part has come to. -/
theorem runOps_append {ops : List Instr} {s t : State} (h : runOps ops s = .next t) (ops' : List Instr) :
    runOps (ops ++ ops') s = runOps ops' t := by
  induction ops generalizing s with
  | nil => cases h; rfl
  | cons i ops ih =>
    cases hexec : exec i s with
    | next u =>
      rw [runOps_cons hexec] at h
      rw [List.cons_append, runOps_cons hexec, ih h]
    | fault | refused => rw [runOps, hexec] at h; cases h

@[simp] theorem scanBytes_append (ops ops' : List Instr) :
    scanBytes (ops ++ ops') = scanBytes ops ++ scanBytes ops' := by
  induction ops with
  | nil => rfl
  | cons i ops ih => cases i <;> simp [scanBytes, ih]

@[simp] theorem scanTicks_append (ops ops' : List Instr) :
    scanTicks (ops ++ ops') = scanTicks ops + scanTicks ops' := by
  induction ops with
  | nil => exact (Nat.zero_add _).symm
  | cons i ops ih => cases i <;> simp [scanTicks, ih, Nat.add_right_comm]

/-! ### The signature in the bytes taken -/

/-- The last two of `bytes` are 42 4D (41_frame_scanner.md R113). -/
def endsInPair (bytes : List Byte) : Prop := ∃ n, n + 2 = bytes.length ∧ pairAt bytes n

/-- No two neighbours in `bytes`, the last two apart, are 42 4D (41_frame_scanner.md R113). -/
def noEarlierPair (bytes : List Byte) : Prop := ∀ n, n + 2 < bytes.length → ¬ pairAt bytes n

theorem pairAt_append {bytes : List Byte} {n : Nat} (hn : n + 2 ≤ bytes.length) (left : List Byte) :
    pairAt (bytes ++ left) n ↔ pairAt bytes n := by
  rw [pairAt, pairAt, List.getElem?_append_left (by omega), List.getElem?_append_left (by omega)]

theorem not_endsInPair_nil : ¬ endsInPair [] := fun ⟨_, hn, _⟩ => absurd hn (Nat.succ_ne_zero _)

/-- The pair a byte ends is that byte and the one before it; the window begins with 00, so the first byte of a read ends none
(41_frame_scanner.md R110 (d)). -/
theorem endsInPair_concat (bytes : List Byte) (data : Byte) :
    endsInPair (bytes ++ [data]) ↔ bytes.getLastD 0x00 = 0x42 ∧ data = 0x4D := by
  rcases bytes.eq_nil_or_concat with rfl | ⟨taken, last, rfl⟩
  · simp [endsInPair]
  · have hpair : pairAt (taken ++ [last] ++ [data]) taken.length ↔ last = 0x42 ∧ data = 0x4D := by simp [pairAt]
    rw [List.concat_eq_append, List.getLastD_concat, ← hpair]
    constructor
    · rintro ⟨n, hn, hn'⟩
      obtain rfl : n = taken.length := by simpa using hn
      exact hn'
    · exact fun h => ⟨taken.length, by simp, h⟩

theorem noEarlierPair.of_append {bytes left : List Byte} (h : noEarlierPair (bytes ++ left)) : noEarlierPair bytes :=
  fun n hn hpair => h n (by rw [List.length_append]; omega) ((pairAt_append (by omega) left).mpr hpair)

/-- Where a further byte is taken, the bytes before it do not end in the signature. -/
theorem noEarlierPair.not_endsInPair {bytes : List Byte} {data : Byte} (h : noEarlierPair (bytes ++ [data])) :
    ¬ endsInPair bytes := fun ⟨n, hn, hpair⟩ =>
  h n (by rw [List.length_append, List.length_singleton]; omega) ((pairAt_append (by omega) [data]).mpr hpair)

/-! ### START and a sequence of scan operations -/

/-- What START and the scan operations `ops` make of `s`: the bytes taken decide the phase, and without a match `tmr` counts
the ticks since START (41_frame_scanner.md R113, R114). -/
structure ScansTo (s : State) (ops : List Instr) (t : State) : Prop where
  matched : endsInPair (scanBytes ops) → t.phase = .body
  scanning : ¬ endsInPair (scanBytes ops) → t.phase = .scan ∧ t.tmr = scanTicks ops
  tmr_le : t.tmr ≤ scanTicks ops
  win1 : t.win1 = (scanBytes ops).getLastD 0x00
  lastErr : t.lastErr = s.lastErr
  cfg : t.cfg = s.cfg
  store : s.storeEq t

section
variable {s t : State} {ops : List Instr}

theorem ScansTo.scanB (h : ScansTo s ops t) (data : Byte) (hmore : ¬ endsInPair (scanBytes ops)) :
    ∃ u, exec (.scanB data) t = .next u ∧ ScansTo s (ops ++ [.scanB data]) u := by
  obtain ⟨hphase, htmr⟩ := h.scanning hmore
  have hbytes : scanBytes (ops ++ [.scanB data]) = scanBytes ops ++ [data] := scanBytes_append ..
  have hticks : scanTicks (ops ++ [.scanB data]) = scanTicks ops := scanTicks_append ..
  have hends : endsInPair (scanBytes (ops ++ [.scanB data])) ↔ t.win1 = 0x42 ∧ data = 0x4D := by
    rw [hbytes, endsInPair_concat, h.win1]
  have hwin : data = (scanBytes (ops ++ [.scanB data])).getLastD 0x00 := by rw [hbytes, List.getLastD_concat]
  by_cases hseen : t.win1 = 0x42 ∧ data = 0x4D
  · exact ⟨_, exec_scanB_of_seen hseen, fun _ => rfl, fun hnot => absurd (hends.mpr hseen) hnot, Nat.zero_le _, hwin,
      h.lastErr, h.cfg, h.store⟩
  · exact ⟨_, exec_scanB_of_not_seen hseen, fun hmatch => absurd (hends.mp hmatch) hseen,
      fun _ => ⟨hphase, htmr.trans hticks.symm⟩, hticks ▸ h.tmr_le, hwin, h.lastErr, h.cfg, h.store⟩

/-- An operation that takes no byte and only counts its tick keeps where the bytes have come to. -/
theorem ScansTo.of_no_byte {i : Instr} (h : ScansTo s ops t) (hnone : scanBytes [i] = []) (out : Out) :
    ScansTo s (ops ++ [i]) { t with tmr := t.tmr + scanTicks [i], out := out } := by
  have hbytes : scanBytes (ops ++ [i]) = scanBytes ops := by rw [scanBytes_append, hnone, List.append_nil]
  have hticks := scanTicks_append ops [i]
  refine ⟨?matched, ?scanning, ?tmr_le, hbytes ▸ h.win1, h.lastErr, h.cfg, h.store⟩
  case matched => rw [hbytes]; exact h.matched
  case scanning =>
    rw [hbytes, hticks]
    intro hnot
    obtain ⟨hphase, htmr⟩ := h.scanning hnot
    exact ⟨hphase, congrArg (· + scanTicks [i]) htmr⟩
  case tmr_le => rw [hticks]; exact Nat.add_le_add_right h.tmr_le _

/-- One more operation, within the budget and with no byte after a match. -/
theorem ScansTo.step {i : Instr} (h : ScansTo s ops t) (hi : isScanOp i = true)
    (hticks : scanTicks (ops ++ [i]) < s.cfg.tScan) (hpair : noEarlierPair (scanBytes (ops ++ [i]))) :
    ∃ u, exec i t = .next u ∧ ScansTo s (ops ++ [i]) u := by
  rw [scanTicks_append] at hticks
  rw [scanBytes_append] at hpair
  cases i with
  | scanB data => exact h.scanB data hpair.not_endsInPair
  | scanT =>
    have hlt : t.tmr + 1 < t.cfg.tScan := by
      rw [h.cfg]
      exact Nat.lt_of_le_of_lt (Nat.succ_le_succ h.tmr_le) hticks
    exact ⟨_, exec_scanT_of_lt hlt, h.of_no_byte rfl _⟩
  | scanW => exact ⟨_, rfl, h.of_no_byte rfl _⟩
  | _ => cases hi

end

/-- START and scan operations within the budget, none a byte after the first match, go on to such a state. -/
theorem runOps_start_scansTo (s : State) (ops : List Instr) (hops : ∀ i ∈ ops, isScanOp i = true)
    (hticks : scanTicks ops < s.cfg.tScan) (hpair : noEarlierPair (scanBytes ops)) :
    ∃ t, runOps (.start :: ops) s = .next t ∧ ScansTo s ops t := by
  induction ops using List.reverseRecOn with
  | nil =>
    exact ⟨_, runOps_cons (exec_start_eq s) [], fun h => absurd h not_endsInPair_nil, fun _ => ⟨rfl, rfl⟩, Nat.le_refl 0,
      rfl, rfl, rfl, rfl, rfl, rfl⟩
  | append_singleton ops i ih =>
    rw [List.forall_mem_append] at hops
    obtain ⟨t, hrun, ht⟩ := ih hops.1 (by rw [scanTicks_append] at hticks; omega)
      (by rw [scanBytes_append] at hpair; exact hpair.of_append)
    obtain ⟨u, hexec, hu⟩ := ht.step (hops.2 i (List.mem_singleton_self i)) hticks hpair
    exact ⟨u, (runOps_append hrun [i]).trans (runOps_cons hexec []), hu⟩

/-- Settles O52: the phase is BODY or SCAN as the bytes taken end in the signature or not. -/
theorem scannerStopsAtTheFirstSignature : Obligations.ScannerStopsAtTheFirstSignature := by
  intro s ops hops hticks hpair
  obtain ⟨t, hrun, ht⟩ := runOps_start_scansTo s ops hops hticks hpair
  refine ⟨t, hrun, ?_⟩
  by_cases hends : endsInPair (scanBytes ops)
  · have hphase := ht.matched hends
    exact ⟨⟨fun _ => hends, fun _ => hphase⟩, .inl hphase⟩
  · have hphase := (ht.scanning hends).1
    have hbody : t.phase ≠ .body := by rw [hphase]; nofun
    exact ⟨⟨fun h => absurd h hbody, fun h => absurd h hends⟩, .inr hphase⟩

/-- Settles O53: without a match `tmr` is the number of ticks, and the tick that brings it to the budget ends the read. -/
theorem scannerTimesOutAtTheBudgetTick : Obligations.ScannerTimesOutAtTheBudgetTick := by
  intro s ops hops hnone hticks
  obtain ⟨t, hrun, ht⟩ := runOps_start_scansTo s ops hops hticks fun n _ => hnone n
  obtain ⟨hphase, htmr⟩ := ht.scanning fun ⟨n, _, hpair⟩ => hnone n hpair
  refine ⟨t, hrun, hphase, htmr, ht.lastErr, fun hlast => ?_⟩
  have hspent : t.cfg.tScan ≤ t.tmr + 1 := by rw [ht.cfg, htmr, hlast]
  exact ⟨_, (runOps_append hrun [.scanT]).trans (runOps_cons (exec_scanT_of_le hspent) []), rfl, rfl, rfl, ht.store⟩

end Sys2Proof.Machine
end

section
/-! SUPPORT. The Frame Reader (42_frame_reader.md): what BODY.B makes of the state (R120), and where the bytes after a match
lead by the length they declare (R122, R125). -/

namespace Sys2Proof.Machine

open Sys2Proof

/-! ### One byte -/

/-- A verdict writes the phase, `last_err` and the outputs, and nothing else (42_frame_reader.md R120). -/
theorem State.followVerdict_eq (s : State) (v : BodyVerdict) :
    s.followVerdict v =
      { s with
        phase := (s.followVerdict v).phase, lastErr := (s.followVerdict v).lastErr, out := (s.followVerdict v).out } := by
  cases v <;> rfl

/-- The three tests of BODY.B on the length as an exact number (42_frame_reader.md R120, R121). -/
theorem bodyVerdict_eq_ite (n : Nat) (len : Word) :
    bodyVerdict n len =
      if n = 4 ∧ len.toNat = 0 then .zeroLength
      else if n ≥ 4 ∧ n = len.toNat + 4 then .complete
      else if n = 32 then .full
      else .more :=
  if_congr (and_congr_right fun _ => BitVec.toNat_inj.symm) rfl rfl

/-- Settles O7: the registers the byte itself writes, then the four verdicts in the order of the rule. -/
theorem bodyByteStoresLatchesAndDecides : Obligations.BodyByteStoresLatchesAndDecides := by
  intro s data h31
  refine ⟨_, exec_bodyB_of_le h31, _, _, rfl, rfl, ?_⟩
  rw [← lengthAfter_toNat, ← State.appended_len, State.followVerdict_eq]
  refine ⟨fun _ h32 => Memory.read_write _ _ _ _ h32, State.appended_cnt_toNat (data := data) h31, rfl, ?verdict, rfl,
    rfl, rfl, rfl, rfl, ⟨rfl, rfl, rfl⟩, rfl, rfl, rfl, rfl, rfl⟩
  case verdict =>
    rw [bodyVerdict_eq_ite]
    split_ifs <;> exact ⟨rfl, rfl, rfl⟩

/-! ### The verdicts by the declared length -/

/-- Before the declared length and the end of the buffer are reached, more bytes follow. -/
theorem bodyVerdict_eq_more {n : Nat} {len : Word} (hlen : n < len.toNat + 4) (h32 : n < 32) :
    bodyVerdict n len = .more := by
  rw [bodyVerdict_eq_ite, if_neg (by omega), if_neg (by omega), if_neg (by omega)]

/-- A length that does not fit fills the buffer (42_frame_reader.md R122). -/
theorem bodyVerdict_eq_full {len : Word} (h29 : 29 ≤ len.toNat) : bodyVerdict 32 len = .full := by
  rw [bodyVerdict_eq_ite, if_neg (by omega), if_neg (by omega), if_pos rfl]

/-! ### The bytes of a body -/

section
variable {s : State}

/-- BODY.B with the length the bytes declare in place of the register, which holds it from the fourth byte on. -/
theorem Buffered.exec_bodyB_of_field {taken left : List Byte} {data : Byte} {len : Word} (h : Buffered s taken)
    (hfield : assemble ((taken ++ [data] ++ left).getD 2 0x00) ((taken ++ [data] ++ left).getD 3 0x00) = len)
    (h31 : taken.length ≤ 31) :
    exec (.bodyB data) s = .next ((s.appended data).followVerdict (bodyVerdict (taken.length + 1) len)) := by
  have hlength : (taken ++ [data]).length = taken.length + 1 := List.length_append
  rw [exec_bodyB_of_le (by rwa [h.cnt]), h.cnt]
  by_cases h4 : 4 ≤ taken.length + 1
  · rw [List.getD_append _ _ _ 2 (by omega), List.getD_append _ _ _ 3 (by omega)] at hfield
    rw [(h.appended h31 data).len (by omega), hfield]
  · rw [bodyVerdict_eq_more (by omega) (by omega), bodyVerdict_eq_more (by omega) (by omega)]

/-- Bytes that go neither beyond the declared length nor beyond the buffer are all stored, and the last one decides
(42_frame_reader.md R125). -/
theorem Buffered.runOps_bodyB {taken left : List Byte} {data : Byte} {len : Word} (h : Buffered s taken)
    (hp : s.phase = .body)
    (hfield : assemble ((taken ++ data :: left).getD 2 0x00) ((taken ++ data :: left).getD 3 0x00) = len)
    (hlen : (taken ++ data :: left).length ≤ len.toNat + 4) (h32 : (taken ++ data :: left).length ≤ 32) :
    ∃ t, runOps ((data :: left).map .bodyB) s =
        .next (t.followVerdict (bodyVerdict (taken ++ data :: left).length len)) ∧
      t.lastErr = s.lastErr ∧ Buffered t (taken ++ data :: left) := by
  induction left generalizing s taken data with
  | nil =>
    have h31 : taken.length ≤ 31 := by rw [List.length_append] at h32; exact Nat.le_of_succ_le_succ h32
    have hexec := h.exec_bodyB_of_field (left := []) (len := len) (by rwa [List.append_nil]) h31
    rw [List.length_append]
    exact ⟨s.appended data, runOps_cons hexec [], rfl, h.appended h31 data⟩
  | cons data' left ih =>
    rw [List.append_cons] at hfield hlen h32 ⊢
    have hlength : (taken ++ [data] ++ data' :: left).length = taken.length + left.length + 2 := by simp; omega
    have h31 : taken.length ≤ 31 := by omega
    have hexec := h.exec_bodyB_of_field hfield h31
    rw [bodyVerdict_eq_more (by omega) (by omega)] at hexec
    obtain ⟨t, hrun, herr, hbuf⟩ := ih (h.appended h31 data) hp hfield hlen h32
    exact ⟨t, (runOps_cons hexec _).trans hrun, herr, hbuf⟩

/-- The buffer as a match leaves it holds the signature (41_frame_scanner.md R110). -/
theorem buffered_signature (hcnt : s.cnt = 2) (h0 : s.buf.read 0 = 0x42) (h1 : s.buf.read 1 = 0x4D)
    (hzeros : ∀ a, 2 ≤ a → a < 32 → s.buf.read a = 0x00) : Buffered s [0x42, 0x4D] where
  cnt := by rw [hcnt]; rfl
  buf
    | 0, _ => h0
    | 1, _ => h1
    | a + 2, h32 => hzeros (a + 2) (Nat.le_add_left 2 a) h32
  len := nofun

/-- The bytes after a match, the length field first (42_frame_reader.md R125). -/
theorem Buffered.runOps_body {lenH lenL : Byte} {body : List Byte} (h : Buffered s [0x42, 0x4D]) (hp : s.phase = .body)
    (hlen : body.length ≤ (assemble lenH lenL).toNat) (h28 : body.length ≤ 28) :
    ∃ t, runOps ((lenH :: lenL :: body).map .bodyB) s =
        .next (t.followVerdict (bodyVerdict (body.length + 4) (assemble lenH lenL))) ∧
      t.lastErr = s.lastErr ∧ Buffered t (0x42 :: 0x4D :: lenH :: lenL :: body) :=
  h.runOps_bodyB hp rfl (Nat.add_le_add_right hlen 4) (Nat.add_le_add_right h28 4)

end

/-- Settles O54: in each class the bytes end at the declared length or at the end of the buffer, whichever is first, and the
verdict there is the class's own. -/
theorem readerFollowsTheDeclaredLength : Obligations.ReaderFollowsTheDeclaredLength := by
  intro s lenH lenL body hp hcnt h0 h1 hzeros
  have hsig := buffered_signature hcnt h0 h1 hzeros
  refine ⟨(assemble lenH lenL).toNat, assemble_toNat lenH lenL, fun hzero => ?zero, fun hpos h28 hlength => ?accepted,
    fun h29 hlength => ?tooLong⟩
  case zero =>
    obtain ⟨t, hrun, -⟩ := hsig.runOps_body (body := []) hp (Nat.zero_le _) (Nat.zero_le _)
    rw [show assemble lenH lenL = 0 from BitVec.eq_of_toNat_eq hzero] at hrun
    exact ⟨_, hrun, rfl, rfl, rfl⟩
  case accepted =>
    obtain ⟨t, hrun, herr, hbuf⟩ := hsig.runOps_body hp hlength.le (hlength.trans_le h28)
    rw [hlength, bodyVerdict_of_le hpos h28 (Nat.le_refl _) fun _ => rfl, if_pos rfl] at hrun
    exact ⟨_, hrun, rfl, congrArg BitVec.toNat (hbuf.len (Nat.le_add_left 4 _)),
      hbuf.cnt.trans (congrArg (· + 4) hlength), herr, hbuf.buf⟩
  case tooLong =>
    obtain ⟨t, hrun, -, hbuf⟩ := hsig.runOps_body hp (hlength.trans_le (Nat.le_of_succ_le h29)) hlength.le
    rw [hlength, bodyVerdict_eq_full h29] at hrun
    exact ⟨_, hrun, rfl, rfl, rfl, hbuf.cnt.trans (congrArg (· + 4) hlength)⟩

end Sys2Proof.Machine
end

section
/-! SUPPORT. The Byte-Order Normalizer (43_byte_order_normalizer.md): NORM exchanges the bytes of every pair and is its own
inverse (R130), keeps the sums of whole pairs (R131) and the zeros beyond an even frame (R132). -/

namespace Sys2Proof.Machine

open Sys2Proof

/-! ### The exchange of pairs -/

section
variable (m : Memory)

/-- The signature bytes are in no pair (43_byte_order_normalizer.md R130). -/
theorem Memory.read_swapPairs_of_lt_two {a : Nat} (h2 : a < 2) : m.swapPairs.read a = m.read a := by
  rw [Memory.read_swapPairs _ _ (by omega), swapOffset, if_pos h2]

theorem Memory.swapPairs_swapPairs (h : m.wf = true) : m.swapPairs.swapPairs = m := by
  refine Memory.ext_of_wf _ _ m.swapPairs.swapPairs_wf h fun a h32 => ?_
  rw [Memory.read_swapPairs _ _ h32, Memory.read_swapPairs _ _ (swapOffset_lt a h32), swapOffset_swapOffset]

theorem Memory.sumTo_add (a n : Nat) : m.sumTo (a + n) = m.sumTo a + m.sumFrom a n := by
  induction n with
  | zero => exact (BitVec.add_zero _).symm
  | succ n ih => rw [← Nat.add_assoc, Memory.sumTo, Memory.sumFrom, ih, BitVec.add_assoc]

/-- A range of whole pairs lies between two offsets up to which the sums are the same (43_byte_order_normalizer.md R131). -/
theorem Memory.sumFrom_swapPairs {j n : Nat} (h : j + n ≤ 16) :
    m.swapPairs.sumFrom (2 * j) (2 * n) = m.sumFrom (2 * j) (2 * n) := by
  have hsum := m.sumTo_swapPairs h
  rw [Nat.mul_add, Memory.sumTo_add, Memory.sumTo_add, m.sumTo_swapPairs (by omega)] at hsum
  exact add_left_cancel hsum

end

/-! ### NORM -/

/-- NORM writes the buffer, the phase and the outputs, and nothing else (43_byte_order_normalizer.md R130). -/
theorem exec_norm_eq (s : State) :
    exec .norm s = .next
      { s with
        buf := s.buf.swapPairs, phase := .rslv
        out := { ready := false, busy := true, done := false, result := none } } := rfl

/-- Settles O9: the exchange is its own inverse on a canonical buffer. -/
theorem normTwiceRestoresTheBuffer : Obligations.NormTwiceRestoresTheBuffer :=
  fun s hwf => ⟨_, _, exec_norm_eq s, exec_norm_eq _, s.buf.swapPairs_swapPairs hwf⟩

/-- Settles O46: the range from `2j` to `2k + 1` is the `k - j + 1` pairs from pair `j` on. -/
theorem sumsOfWholePairsSurviveNorm : Obligations.SumsOfWholePairsSurviveNorm :=
  fun s => ⟨_, exec_norm_eq s, fun j k _ _ => s.buf.sumFrom_swapPairs (j := j) (n := k - j + 1) (by omega)⟩

/-- Settles O47: the frame ends at an even offset, so no pair reaches over its end. -/
theorem normKeepsTheZerosBeyondAnEvenFrame : Obligations.NormKeepsTheZerosBeyondAnEvenFrame := by
  intro s heven hzeros
  have heven : s.len.toNat % 2 = 0 := beq_iff_eq.mp heven
  exact ⟨_, exec_norm_eq s, Memory.read_swapPairs_eq_zero (by omega) hzeros⟩

/-- Settles O8: the two bytes of pair `k` stand at an even and an odd offset from 2 to 31. -/
theorem normExchangesEveryPair : Obligations.NormExchangesEveryPair := by
  refine fun s => ⟨_, exec_norm_eq s, s.buf.read_swapPairs_of_lt_two (by decide),
    s.buf.read_swapPairs_of_lt_two (by decide), fun k h1 h15 => ⟨?first, ?second⟩, rfl, rfl, rfl, rfl, rfl, rfl, rfl, rfl,
    rfl, ⟨rfl, rfl, rfl⟩, rfl, rfl, ⟨rfl, rfl, rfl, rfl⟩⟩
  case first => exact s.buf.read_swapPairs_even (by omega) (by omega) (by omega)
  case second => exact s.buf.read_swapPairs_odd (by omega) (by omega) (by omega)

end Sys2Proof.Machine
end

section
/-! SUPPORT. The Variant Resolver (44_variant_resolver.md R135): the variant by the two bytes of the length field, and what
RSLV makes of the state. -/

namespace Sys2Proof.Machine

open Sys2Proof

/-- The variant of a 16-bit value of the buffer, low byte first (44_variant_resolver.md R135). -/
theorem variantOf_read16 (m : Memory) (a : Nat) :
    variantOf (m.read16 a) =
      if (m.read a).toNat + 256 * (m.read (a + 1)).toNat = 28 then .extended else .compact := by
  have hext : m.read16 a = extLen ↔ (m.read a).toNat + 256 * (m.read (a + 1)).toNat = 28 := by
    rw [← BitVec.toNat_inj, Memory.read16_toNat, Nat.add_comm]
    rfl
  exact if_congr hext rfl rfl

/-- RSLV writes the variant, the phase and the outputs, and nothing else (44_variant_resolver.md R135). -/
theorem exec_rslv_eq (s : State) :
    exec .rslv s = .next
      { s with
        var := variantOf (s.buf.read16 2), phase := .csum
        out := { ready := false, busy := true, done := false, result := none } } := rfl

/-- Settles O10: the length field is the 16-bit value at offset 2, and RSLV writes its variant. -/
theorem rslvClassifiesByTheLengthField : Obligations.RslvClassifiesByTheLengthField := fun s =>
  ⟨_, exec_rslv_eq s, variantOf_read16 s.buf 2, rfl, rfl, rfl, rfl, rfl, rfl, rfl, rfl, rfl, ⟨rfl, rfl, rfl⟩, rfl, rfl,
    ⟨rfl, rfl, rfl, rfl⟩⟩

end Sys2Proof.Machine
end

section
/-! SUPPORT. The Checksum Validator (45_checksum_validator.md): what CSUM and SIGC make of the state (R140, R145), the frames
that SIGC commits (R202), and the checksum test on the bytes as they arrived, for even and odd lengths (R143, R144). -/

namespace Sys2Proof.Machine

open Sys2Proof

/-! ### SIGC -/

/-- Settles O12: the signature test on the two bytes, then COMMIT or FAIL. -/
theorem sigcCommitsOrFails : Obligations.SigcCommitsOrFails := fun s =>
  congrArg Host.Outcome.next (if_congr (signatureHolds_iff s.buf) rfl rfl)

/-- The rows of the table other than SIGC's end a read with an error, and not with SignatureError (40_sequencing.md R104). -/
theorem transition_ends_of_ne_sigc {s : State} {i : Instr} {code : Option ErrKind} (hi : i ≠ .sigc)
    (hends : (transition s i).ends = some code) : code ≠ none ∧ code ≠ some .signatureError := by
  cases i with
  | start | hold | scanW | bodyW | norm | rslv | rsvd7 | cmdPassive | cmdRequest | frame => cases hends
  | sigc => exact absurd rfl hi
  | scanB | scanT | bodyB | bodyT | csum =>
    simp only [transition] at hends
    split_ifs at hends <;> cases hends <;> exact ⟨nofun, nofun⟩

/-- Under the invariant an operation that ends a read ends it with an error other than SignatureError, or is a SIGC that
commits (45_checksum_validator.md R145 (a)). -/
theorem Invariant.result_of_done {s t : State} {start tick : Bool} (h : Invariant s)
    (hexec : exec (s.operation start tick) s = .next t) (hdone : t.out.done = true) :
    (t.out.result ≠ none ∧ t.out.result ≠ some .signatureError) ∨ t = (s.drive false true).commit := by
  by_cases hi : s.operation start tick = .sigc
  · rw [hi] at hexec
    have hsum := h.summed (phase_of_operation_eq_sigc hi)
    rcases exec_sigc_cases hexec with ⟨-, ht⟩ | ⟨hsig, -⟩
    · exact .inr ht
    · exact absurd ⟨hsum.byte0, hsum.byte1⟩ hsig
  · obtain ⟨-, hends, hcode⟩ := exec_meets_transition (isOperation_operation s start tick) hexec
    obtain ⟨code, hcode'⟩ := Option.isSome_iff_exists.mp (hends.mp hdone)
    rw [(hcode code hcode').2]
    exact .inl (transition_ends_of_ne_sigc hi hcode')

/-- Settles O44: a clock step that ends a read with `result` 0 is a SIGC that commits, and what it stores is sound by the
invariant after it. -/
theorem committedFramesAreValid : Obligations.CommittedFramesAreValid := by
  intro s t rst start tick h he hstep
  obtain ⟨-, -, -, -, hdone_iff, -, hresult, -⟩ := outputsFollowThePhase s t rst start tick he hstep
  by_cases hdone : t.out.done = true
  · obtain ⟨rfl, -⟩ := hdone_iff.mp hdone
    have hexec := hstep
    rw [step, he, perform, clockStep_operation] at hexec
    rcases h.dropEvent.result_of_done hexec hdone with ⟨hnone, hsig⟩ | rfl
    · exact ⟨hsig, fun _ hres => absurd hres hnone⟩
    · obtain ⟨h0, h1, hpos, h28, -, hsum⟩ := (everyStepKeepsTheInvariant s _ h hstep).facts.storeValidated rfl
      exact ⟨nofun, fun _ _ => ⟨rfl, h0, h1, hpos, h28, hsum⟩⟩
  · rw [hresult (Bool.eq_false_iff.mpr hdone)]
    exact ⟨nofun, fun hdone' => absurd hdone' hdone⟩

/-! ### The sum as an exact number -/

/-- The exact sum of the `n` bytes at offsets 0 to `n - 1` (45_checksum_validator.md R141). -/
def Memory.exactSum (m : Memory) (n : Nat) : Nat := ((List.range n).map fun i => (m.read i).toNat).sum

section
variable (m : Memory)

theorem Memory.exactSum_succ (n : Nat) : m.exactSum (n + 1) = m.exactSum n + (m.read n).toNat := by
  simp [Memory.exactSum, List.range_succ]

theorem Memory.exactSum_le (n : Nat) : m.exactSum n ≤ 255 * n := by
  induction n with
  | zero => exact Nat.le_refl 0
  | succ n ih =>
    have hbyte := (m.read n).isLt
    rw [m.exactSum_succ]
    omega

/-- The sum of a buffer's bytes does not wrap (45_checksum_validator.md R141). -/
theorem Memory.sumTo_toNat {n : Nat} (h32 : n ≤ 32) : (m.sumTo n).toNat = m.exactSum n := by
  induction n with
  | zero => rfl
  | succ n ih =>
    have hle := m.exactSum_le n
    have hbyte := (m.read n).isLt
    rw [Memory.sumTo, m.exactSum_succ, BitVec.toNat_add, ih (by omega), BitVec.toNat_setWidth]
    omega

end

/-! ### CSUM -/

/-- CSUM after its test (45_checksum_validator.md R140). -/
def State.tested (s : State) : State :=
  if computedSum s.buf s.len = receivedSum s.buf s.len then { s.summed with phase := .sigc }
  else s.summed.fail .checksumError

section
variable {s : State}

theorem State.tested_of_eq (h : computedSum s.buf s.len = receivedSum s.buf s.len) :
    s.tested = { s.summed with phase := .sigc } := if_pos h

theorem State.tested_of_ne (h : computedSum s.buf s.len ≠ receivedSum s.buf s.len) :
    s.tested = s.summed.fail .checksumError := if_neg h

theorem State.tested_acc : s.tested.acc = computedSum s.buf s.len := by
  rw [State.tested]
  split <;> rfl

theorem State.tested_phase_eq_sigc_iff :
    s.tested.phase = .sigc ↔ computedSum s.buf s.len = receivedSum s.buf s.len := by
  by_cases h : computedSum s.buf s.len = receivedSum s.buf s.len
  · rw [State.tested_of_eq h]; exact iff_of_true rfl h
  · rw [State.tested_of_ne h]; exact iff_of_false nofun h

theorem exec_csum_of_le (h28 : s.len.toNat ≤ 28) : exec .csum s = .next s.tested := by
  have hcap : ckOffset s.len + 1 < bufCap := by rw [ckOffset_eq, bufCap]; omega
  exact (if_pos hcap).trans (congrArg Host.Outcome.next (if_congr beq_iff_eq rfl rfl))

end

/-- Settles O11: the two sides of the test are exact numbers, and CSUM writes no other register. -/
theorem csumComparesExactSumWithReceived : Obligations.CsumComparesExactSumWithReceived := by
  intro s h28
  have hsum : (computedSum s.buf s.len).toNat = s.buf.exactSum (s.len.toNat + 2) := by
    rw [computedSum_eq, s.buf.sumTo_toNat (by omega)]
  have hrx : (receivedSum s.buf s.len).toNat =
      (s.buf.read (s.len.toNat + 2)).toNat + 256 * (s.buf.read (s.len.toNat + 3)).toNat := by
    rw [receivedSum_eq, Memory.read16_toNat, Nat.add_comm]
  have hexec := exec_csum_of_le h28
  have w := exec_writesOnly hexec
  obtain ⟨hwin0, hwin1⟩ := w.window nofun nofun
  refine ⟨_, hexec, _, _, rfl, ?bound, rfl, ?acc, ?test, hwin0, hwin1, w.buf nofun nofun nofun nofun,
    w.cnt nofun nofun nofun, w.len nofun nofun, w.var nofun nofun, w.tmr nofun nofun nofun nofun, w.store nofun, w.source nofun nofun nofun,
    w.cfg, w.outbound nofun nofun, w.events, w.fresh⟩
  case bound => exact (s.buf.exactSum_le (s.len.toNat + 2)).trans (by omega)
  case acc => rw [State.tested_acc]; exact hsum
  case test =>
    rw [← hrx, ← Memory.exactSum, ← hsum]
    split_ifs with htest
    · rw [State.tested_of_eq (BitVec.eq_of_toNat_eq htest)]; exact ⟨rfl, rfl, rfl⟩
    · rw [State.tested_of_ne (mt (congrArg BitVec.toNat) htest)]; exact ⟨rfl, rfl, rfl⟩

/-! ### The test in terms of the bytes as they arrived -/

/-- The state that NORM and RSLV leave to CSUM (43_byte_order_normalizer.md R130, 44_variant_resolver.md R135). -/
def State.resolved (s : State) : State :=
  { s with
    buf := s.buf.swapPairs, var := variantOf (s.buf.swapPairs.read16 2), phase := .csum
    out := { ready := false, busy := true, done := false, result := none } }

theorem runOps_norm_rslv_csum {s : State} (h28 : s.len.toNat ≤ 28) :
    runOps [.norm, .rslv, .csum] s = .next s.resolved.tested := by
  rw [runOps_cons (exec_norm_eq s), runOps_cons (exec_rslv_eq _)]
  exact runOps_cons (exec_csum_of_le (s := s.resolved) h28) []

section
variable (m : Memory) {len : Word}

/-- The summed range of an even length is whole pairs (43_byte_order_normalizer.md R131). -/
theorem computedSum_swapPairs_of_even (heven : len.toNat % 2 = 0) (h28 : len.toNat ≤ 28) :
    computedSum m.swapPairs len = m.sumTo (len.toNat + 2) := by
  obtain ⟨k, hk⟩ : ∃ k, len.toNat + 2 = 2 * k := ⟨len.toNat / 2 + 1, by omega⟩
  rw [computedSum_eq, hk, m.sumTo_swapPairs (by omega)]

/-- The checksum field of an even length is the last pair (45_checksum_validator.md R142). -/
theorem receivedSum_swapPairs_of_even (heven : len.toNat % 2 = 0) (h28 : len.toNat ≤ 28) :
    receivedSum m.swapPairs len = assemble (m.read (len.toNat + 2)) (m.read (len.toNat + 3)) := by
  rw [receivedSum_eq, m.read16_swapPairs_even (by omega) (by omega) (by omega)]

/-- The summed range of an odd length ends in the middle of a pair (45_checksum_validator.md R143). -/
theorem computedSum_swapPairs_of_odd (hodd : len.toNat % 2 = 1) (h27 : len.toNat ≤ 27) :
    computedSum m.swapPairs len = m.sumTo (len.toNat + 1) + (m.read (len.toNat + 2)).setWidth 16 := by
  obtain ⟨k, hk⟩ : ∃ k, len.toNat + 1 = 2 * k := ⟨len.toNat / 2 + 1, by omega⟩
  have hpairs := m.sumTo_swapPairs (k := k) (by omega)
  rw [← hk] at hpairs
  rw [computedSum_eq, Memory.sumTo, hpairs, m.read_swapPairs_even (by omega) (by omega) (by omega)]

/-- With a zero byte beyond the frame, the field read at an odd length is one byte (45_checksum_validator.md R143). -/
theorem receivedSum_swapPairs_of_odd (hodd : len.toNat % 2 = 1) (h27 : len.toNat ≤ 27)
    (hzero : m.read (len.toNat + 4) = 0x00) :
    receivedSum m.swapPairs len = (m.read (len.toNat + 1)).setWidth 16 := by
  rw [receivedSum_eq, m.read16_swapPairs_odd (by omega) (by omega) (by omega), hzero]
  exact BitVec.zero_or

end

/-- Settles O49: the three operations compare the two sides that an odd length gives. -/
theorem oddLengthsSumAcrossThePairs : Obligations.OddLengthsSumAcrossThePairs := by
  intro s hodd h27 hzero
  have hsum := computedSum_swapPairs_of_odd s.buf hodd h27
  have hrx := receivedSum_swapPairs_of_odd s.buf hodd h27 hzero
  refine ⟨_, runOps_norm_rslv_csum (by omega), State.tested_acc.trans hsum, ?_⟩
  rw [← hsum, ← hrx]
  exact State.tested_phase_eq_sigc_iff

/-! ### The change of a single byte -/

section
variable (m : Memory) {a n : Nat} (v : Byte)

theorem Memory.sumTo_write_of_le (hle : n ≤ a) (h32 : n ≤ 32) : (m.write a v).sumTo n = m.sumTo n :=
  Memory.sumTo_congr _ _ _ fun _ hi => m.read_write_other _ _ _ (by omega) (by omega)

/-- A byte written among the summed ones takes the place of the one before it (45_checksum_validator.md R144). -/
theorem Memory.sumTo_write_of_lt (hlt : a < n) (h32 : n ≤ 32) :
    (m.write a v).sumTo n + (m.read a).setWidth 16 = m.sumTo n + v.setWidth 16 := by
  induction n, hlt using Nat.le_induction with
  | base =>
    rw [Memory.sumTo, Memory.sumTo, m.sumTo_write_of_le v (Nat.le_refl a) (by omega), m.read_write_same _ _ (by omega),
      add_right_comm]
  | succ n hlt ih =>
    rw [Memory.sumTo, Memory.sumTo, m.read_write_other _ _ _ (by omega) (by omega), add_right_comm, ih (by omega),
      add_right_comm]

/-- The sum tells any two values of a summed byte apart (45_checksum_validator.md R144). -/
theorem Memory.eq_of_sumTo_write_eq (hlt : a < n) (h32 : n ≤ 32) (h : (m.write a v).sumTo n = m.sumTo n) :
    v = m.read a := by
  have hwrite := m.sumTo_write_of_lt v hlt h32
  rw [h] at hwrite
  have hbytes := congrArg BitVec.toNat (add_left_cancel hwrite)
  have hold := (m.read a).isLt
  have hnew := v.isLt
  rw [BitVec.toNat_setWidth, BitVec.toNat_setWidth] at hbytes
  exact BitVec.eq_of_toNat_eq (by omega)

/-- The sum of the first `n` bytes stands in the two bytes after them, big-endian, as a sender puts it there
(30_encoding.md R86). -/
def Memory.checksumAt (m : Memory) (n : Nat) : Prop := m.sumTo n = assemble (m.read n) (m.read (n + 1))

/-- A change of one byte of a checksummed frame that leaves it checksummed is none: it changes one side of the equation only
(45_checksum_validator.md R144). -/
theorem Memory.checksumAt.eq_of_write (h : m.checksumAt n) (h30 : n ≤ 30) (ha : a ≤ n + 1)
    (hwrite : (m.write a v).checksumAt n) : v = m.read a := by
  unfold Memory.checksumAt at h hwrite
  rcases Nat.lt_or_ge a n with hlt | hge
  · rw [m.read_write_other _ _ n (by omega) (by omega), m.read_write_other _ _ (n + 1) (by omega) (by omega),
      ← h] at hwrite
    exact m.eq_of_sumTo_write_eq v hlt (by omega) hwrite
  · rw [m.sumTo_write_of_le v hge (by omega), h] at hwrite
    obtain ⟨hhigh, hlow⟩ := assemble_inj _ _ _ _ hwrite
    obtain rfl | rfl : a = n ∨ a = n + 1 := by omega
    · rw [hhigh, m.read_write_same _ _ (by omega)]
    · rw [hlow, m.read_write_same _ _ (by omega)]

end

section
variable {s : State}

/-- For an even length the post stages test the sender's equation on the bytes as they arrived. -/
theorem State.resolved_sum_iff_of_even (heven : s.len.toNat % 2 = 0) (h28 : s.len.toNat ≤ 28) :
    computedSum s.resolved.buf s.resolved.len = receivedSum s.resolved.buf s.resolved.len ↔
      s.buf.checksumAt (s.len.toNat + 2) := by
  rw [Memory.checksumAt, ← computedSum_swapPairs_of_even s.buf heven h28,
    ← receivedSum_swapPairs_of_even s.buf heven h28]
  rfl

theorem runOps_norm_rslv_csum_of_not_checksumAt (heven : s.len.toNat % 2 = 0) (h28 : s.len.toNat ≤ 28)
    (h : ¬ s.buf.checksumAt (s.len.toNat + 2)) :
    runOps [.norm, .rslv, .csum] s = .next (s.resolved.summed.fail .checksumError) := by
  rw [runOps_norm_rslv_csum h28, State.tested_of_ne (mt (State.resolved_sum_iff_of_even heven h28).mp h)]

end

/-- Settles O48: the frame passes by the sender's equation, and with another value in one place the equation fails. -/
theorem singleByteChangesAreDetected : Obligations.SingleByteChangesAreDetected := by
  intro s t a v heven _ h28 _ ha hv hrun hpass
  have heven : s.len.toNat % 2 = 0 := beq_iff_eq.mp heven
  obtain rfl : s.resolved.tested = t := Host.Outcome.next.inj ((runOps_norm_rslv_csum h28).symm.trans hrun)
  have hframe : s.buf.checksumAt (s.len.toNat + 2) :=
    (State.resolved_sum_iff_of_even heven h28).mp (State.tested_phase_eq_sigc_iff.mp hpass)
  have hchanged : ¬ (s.buf.write a v).checksumAt (s.len.toNat + 2) :=
    fun hwrite => hv (hframe.eq_of_write s.buf v (by omega) (by omega) hwrite)
  have hrun' := runOps_norm_rslv_csum_of_not_checksumAt (s := { s with buf := s.buf.write a v }) heven h28 hchanged
  exact ⟨_, hrun', rfl, rfl, rfl, rfl, rfl, rfl⟩

end Sys2Proof.Machine
end

section
/-! SUPPORT. The Reading Store (46_reading_store.md): an operation that fails keeps it (R152, R153), and what the field port
shows of it (R155). -/

namespace Sys2Proof.Machine

open Sys2Proof

/-! ### FAIL -/

/-- Settles O32: an operation with `done = 1` shows what it records, and the one that changes the store commits, with no
error to show. -/
theorem failedReadsKeepTheStoredFrame : Obligations.FailedReadsKeepTheStoredFrame := by
  intro i s t k hi h hdone hresult
  rcases exec_operation_done hi h with ⟨hgoesOn, -⟩ | ⟨-, -, hidle, herr⟩
  · rw [hgoesOn] at hdone
    cases hdone
  · refine ⟨herr.trans hresult, hidle, ?_⟩
    rcases exec_storeEq_or_commit h with hstore | ⟨-, rfl⟩
    · exact hstore
    · cases hresult

/-! ### The field port -/

theorem Memory.read16_eq_zero {m : Memory} {a : Nat} (hlow : m.read a = 0x00) (hhigh : m.read (a + 1) = 0x00) :
    m.read16 a = 0 := by
  rw [Memory.read16, hlow, hhigh]
  rfl

section
variable {s : State}

/-- The field port offers a value at the indices from 1 to 15 of a stored frame, and at no other (46_reading_store.md
R155). -/
theorem State.fld_eq_none_iff {k : Nat} : s.fld k = none ↔ s.stValid = false ∨ k = 0 ∨ 16 ≤ k := by
  rw [State.fld, ite_eq_right_iff, imp_iff_not (Option.some_ne_none _), not_and_or, Bool.not_eq_true]
  exact or_congr_right (by omega)

/-- The checksum field of a stored frame of even length is the field at index `L/2 + 1` (46_reading_store.md R155). -/
theorem StoreSound.fld_checksum (h : StoreSound s) (hvalid : s.stValid = true)
    (heven : (s.stFrame.read16 2).toNat % 2 = 0) :
    s.fld ((s.stFrame.read16 2).toNat / 2 + 1) = some (s.stFrame.sumTo ((s.stFrame.read16 2).toNat + 2)) := by
  obtain ⟨-, -, -, h28, -, hsum⟩ := h.validated hvalid
  have hoffset : 2 * ((s.stFrame.read16 2).toNat / 2 + 1) = (s.stFrame.read16 2).toNat + 2 := by omega
  rw [State.fld_of_valid hvalid (by omega) (by omega), hoffset, hsum]

/-- The fields beyond a stored frame of even length lie in its tail of zeros (46_reading_store.md R155). -/
theorem StoreSound.fld_beyond (h : StoreSound s) (hvalid : s.stValid = true)
    (heven : (s.stFrame.read16 2).toNat % 2 = 0) {k : Nat} (hk : (s.stFrame.read16 2).toNat / 2 + 1 < k)
    (h15 : k ≤ 15) : s.fld k = some 0 := by
  have hzero := h.tailZero hvalid (beq_iff_eq.mpr heven)
  rw [State.fld_of_valid hvalid (by omega) h15,
    Memory.read16_eq_zero (hzero (2 * k) (by omega) (by omega)) (hzero (2 * k + 1) (by omega) (by omega))]

end

/-- Settles O50. -/
theorem fieldPortReadsTheStoredFrame : Obligations.FieldPortReadsTheStoredFrame := by
  refine fun s k => ⟨rfl, fun h1 h15 hvalid => ⟨_, State.fld_of_valid hvalid h1 h15, ?_⟩,
    fun hempty => State.fld_eq_none_iff.mpr (.inl hempty), fun hk => State.fld_eq_none_iff.mpr (.inr hk)⟩
  rw [Memory.read16_toNat, Nat.add_comm]

/-- Settles O51: the invariant knows the checksum of the stored frame and the zeros beyond it. -/
theorem storedFieldsAreLengthChecksumAndZeros : Obligations.StoredFieldsAreLengthChecksumAndZeros := by
  rintro s _ h hvalid rfl
  refine ⟨State.fld_of_valid hvalid (by decide) (by decide), fun heven => ?_⟩
  have heven := beq_iff_eq.mp heven
  exact ⟨h.storeSound.fld_checksum hvalid heven, fun _ => h.storeSound.fld_beyond hvalid heven⟩

end Sys2Proof.Machine
end

section
/-! SUPPORT. Reset, and what the host owes the block (70_reset_and_hazards.md): a reset step (R190, R192), a read with ticks
and nothing else (R196), and the constant configuration (R197). -/

namespace Sys2Proof.Machine

open Sys2Proof

/-! ### Reset -/

/-- Settles O19: the placed reset step leaves the registers of State.reset (70_reset_and_hazards.md R190). -/
theorem resetStepClearsEveryRegister : Obligations.ResetStepClearsEveryRegister := by
  intro s start tick es he
  have hstep : step s = .next { s with events := es }.resetStep := (step_of_cons he).trans (clockStep_reset ..)
  rw [State.resetStep_eq] at hstep
  exact ⟨_, hstep, rfl, rfl, rfl, fun _ _ => rfl, rfl, rfl, rfl, rfl, rfl, fun _ _ => rfl, rfl, rfl, rfl, rfl, rfl, rfl, rfl,
    rfl, rfl⟩

/-! ### The configuration -/

/-- Settles O38: no instruction writes the configuration, and neither do a reset and the acts of the environment. -/
theorem configurationNeverChanges : Obligations.ConfigurationNeverChanges := by
  intro s t h
  rcases step_cases s t h with ⟨_, _, -, rfl⟩ | ⟨_, _, -, hex⟩ | ⟨_, -, rfl⟩ | ⟨_, -, -, rfl⟩
  · exact s.dropEvent_cfg
  · exact (exec_writesOnly hex).cfg.trans s.dropEvent_cfg
  · exact s.dropEvent_cfg
  · exact s.dropEvent_cfg

/-! ### Ticks alone -/

/-- In SCAN a tick is counted, whatever is on offer (30_encoding.md R76). -/
theorem operation_scan_tick {s : State} (hp : s.phase = .scan) (start : Bool) : s.operation start true = .scanT := by
  rw [State.operation, hp]
  rfl

/-- The state in which a read that meets a tick in every step ends: SCAN.T has counted the whole budget and failed
(41_frame_scanner.md R111). -/
def State.timedOut (s : State) (es : List Event) : State :=
  ({ s with tmr := s.cfg.tScan, events := es }.drive false true).fail .syncTimeout

/-- In SCAN the ticks that are left of the budget, in a step each, time the read out (41_frame_scanner.md R114). -/
theorem run_scan_ticks {s : State} {start : Bool} {es : List Event} {left : Nat} (hp : s.phase = .scan)
    (hleft : s.tmr + (left + 1) = s.cfg.tScan)
    (he : s.events = List.replicate (left + 1) (.clock false start true) ++ es) :
    Host.Core.run core (left + 1) s = .next (s.timedOut es) := by
  induction left generalizing s with
  | zero =>
    refine run_clock he (operation_scan_tick hp start) (exec_scanT_of_le (Nat.le_of_eq hleft.symm)) ?_
    rw [State.timedOut, ← hleft]
    rfl
  | succ left ih =>
    have hlt : s.tmr + 1 < s.cfg.tScan := by omega
    exact run_clock he (operation_scan_tick hp start) (exec_scanT_of_lt hlt) <|
      ih hp ((Nat.succ_add_eq_add_succ ..).trans hleft) rfl

/-- Settles O56: START leaves the whole scan budget, and each step spends one tick of it. -/
theorem ticksAloneEndTheReadInSyncTimeout : Obligations.TicksAloneEndTheReadInSyncTimeout := by
  intro s tick start es hp hbudget he
  have hstart : s.operation true tick = .start := by rw [State.operation, hp]; rfl
  obtain ⟨left, hleft⟩ := Nat.exists_eq_add_of_le' hbudget
  rw [hleft] at he ⊢
  have hspent : 0 + (left + 1) = s.cfg.tScan := (Nat.zero_add _).trans hleft.symm
  exact ⟨_, run_clock he hstart (exec_start_eq _) (run_scan_ticks rfl hspent rfl), rfl, rfl, rfl, rfl, rfl, rfl, rfl, rfl⟩

end Sys2Proof.Machine
end
